-- ==== Sys2Proof/Word.lean ====
section
/-! DEFINITION. The words of the block (00_scope R6, R9, R12): every value is unsigned and has a fixed width. -/

namespace Sys2Proof

/-- A LinearBrightness or a DriveLevel, 0..255 (R9). -/
abbrev Byte := BitVec 8

/-- A 16-bit counter (R42, R43). -/
abbrev Half := BitVec 16

/-- A register or a command word: the bus is 32 bits wide (R11, R100). -/
abbrev Word := BitVec 32

/-- A legal PixelIndex: `0 ≤ p < P` with P = 6 (R6). -/
abbrev Pixel := Fin 6

end Sys2Proof
end

