-- ==== Sys2Proof/Syntax.lean ====
section
/-! DEFINITION. What the outside gives the block: command words (`Instr`, one constructor per row of
spec/opcode_table.json), host register accesses, the moves of the three agents, and the lines of a
textual command stream (30_encoding R108, R109). -/

namespace Sys2Proof

/-- The commands of 30_encoding R102. A field the command ignores (R104) is not kept (log 18). -/
inductive Instr
  /-- OP 0x0 (R240). -/
  | nop
  /-- OP 0x1 (R220). -/
  | init
  /-- OP 0x2 (R222). -/
  | enable
  /-- OP 0x3 (R226). -/
  | disable
  /-- OP 0x4 (R151): PIX as its 4-bit field, any value 0..15 (R103), and the three LinearBrightness values. -/
  | setColor (pix : BitVec 4) (r g b : Byte)
  /-- OP 0x5 (R157). -/
  | setAll (r g b : Byte)
  /-- OP 0x6 (R243): the mask BV[5:0]. -/
  | clrStatus (m : BitVec 6)
  /-- OP 0x7, reserved (R246). -/
  | reserved7
  /-- OP 0x8..0xF, reserved (R246): the opcode is kept, so that no opcode bit is lost. -/
  | reserved8F (op : BitVec 4)
  deriving DecidableEq, Repr, Inhabited

/-- A host access reads, or writes the word `v` (20_memory R88). -/
inductive AccessKind
  | read
  | write (v : Word)
  deriving DecidableEq, Repr, Inhabited

/-- `MemRead(off, size)` or `MemWrite(off, size, v)` (00_scope R14): `off` is the byte offset into the
32-byte window (R70, R71: the window decodes exactly 32 bytes, so five bits are all there is). -/
structure HostAccess where
  kind : AccessKind
  off  : BitVec 5
  size : Nat
  deriving DecidableEq, Repr, Inhabited

/-- The moves of 20_memory R78, each with its free choices, and the outside presenting an access. -/
inductive Move
  /-- HOST performs the access presented first. -/
  | host
  /-- ENGINE performs the pending micro-write number `k` (counted modulo their number, so every `k` names one; R153). -/
  | engine (k : Nat)
  /-- PORT delivers a boundary with the free input `late` (R170, R171). -/
  | port (late : Bool)
  /-- The outside presents one more access, behind those that wait (log 2). -/
  | issue (a : HostAccess)
  deriving DecidableEq, Repr, Inhabited

/-- One line of a command stream (30_encoding R108). -/
inductive Line
  | cmd (i : Instr)
  | rd (off : BitVec 5)
  | wr (off : BitVec 5) (v : Word)
  | tick (late : Bool)
  | ticks (k : Nat)
  deriving DecidableEq, Repr

/-- The pseudo-operations of 30_encoding R109. -/
inductive Pseudo
  | off (p : BitVec 4)
  | allOff
  | clrAll
  | irqEn (m : BitVec 3)
  deriving DecidableEq, Repr

end Sys2Proof
end

