-- ==== Sys2Proof/WellFormed.lean ====
section
/-! DEFINITION. Which instructions and accesses are well formed. Operand ranges are the field widths
(30_encoding R100, R103), so one check on instructions remains: the opcode that the reserved upper
half carries. PIX 6..15 is well formed: SET_COLOR gives it a meaning (41_color_store R152). -/

namespace Sys2Proof

/-- Well-formedness of a command: OP of the row `1xxx…` is 8..15 (R102, R105). -/
def Instr.wf : Instr → Bool
  | .nop => true
  | .init => true
  | .enable => true
  | .disable => true
  | .setColor _ _ _ _ => true
  | .setAll _ _ _ => true
  | .clrStatus _ => true
  | .reserved7 => true
  | .reserved8F op => decide (8 ≤ op.toNat)

/-- An admitted access is 4 bytes wide at a multiple of 4 (20_memory R74). Any other raises BusError. -/
def HostAccess.admitted (a : HostAccess) : Bool :=
  decide (a.size = 4) && decide (a.off.toNat % 4 = 0)

end Sys2Proof
end

