-- ==== Sys2Proof/Decode.lean ====
section
/-! DEFINITION. Command decode (30_encoding R100 to R105), total on 32-bit words; a byte string too
short for a word is rejected by name. The encoder stands after it. -/

namespace Sys2Proof

/-- Bits 31:28 (R100). -/
def fieldOp (w : Word) : BitVec 4 := w.extractLsb' 28 4

/-- Bits 27:24. -/
def fieldPix (w : Word) : BitVec 4 := w.extractLsb' 24 4

/-- Bits 23:16. -/
def fieldR (w : Word) : Byte := w.extractLsb' 16 8

/-- Bits 15:8. -/
def fieldG (w : Word) : Byte := w.extractLsb' 8 8

/-- Bits 7:0. -/
def fieldB (w : Word) : Byte := w.extractLsb' 0 8

/-- The CLR_STATUS mask, BV[5:0] (R103). -/
def fieldMask (w : Word) : BitVec 6 := w.extractLsb' 0 6

/-- Command decode: "every 32-bit word selects exactly one of these arms" (R101). -/
def decodeWord (w : Word) : Instr :=
  match fieldOp w with
  | 0x0#4 => .nop
  | 0x1#4 => .init
  | 0x2#4 => .enable
  | 0x3#4 => .disable
  | 0x4#4 => .setColor (fieldPix w) (fieldR w) (fieldG w) (fieldB w)
  | 0x5#4 => .setAll (fieldR w) (fieldG w) (fieldB w)
  | 0x6#4 => .clrStatus (fieldMask w)
  | 0x7#4 => .reserved7
  | op => .reserved8F op

/-- Why a byte string holds no command word. -/
inductive DecodeError
  /-- Fewer than the four bytes every command has (R106). Safe: nothing is decoded. -/
  | truncated
  deriving DecidableEq, Repr

/-- Four bytes, the first the least significant (20_memory R73). -/
def wordOfBytes (b0 b1 b2 b3 : Byte) : Word := b3 ++ b2 ++ b1 ++ b0

/-- The bytes of a word, the least significant first (20_memory R73). -/
def bytesOfWord (w : Word) : List Byte :=
  [w.extractLsb' 0 8, w.extractLsb' 8 8, w.extractLsb' 16 8, w.extractLsb' 24 8]

/-- The command at the head of a byte string, and the bytes after it (R106: every command is 32 bits). -/
def decodeBytes : List Byte → Except DecodeError (Instr × List Byte)
  | b0 :: b1 :: b2 :: b3 :: rest => .ok (decodeWord (wordOfBytes b0 b1 b2 b3), rest)
  | _ => .error .truncated

/-- What the decoder reads from the `nbits`-bit table word `w`, laid out as bytes and padded with zeros
to a whole command; none for a word longer than any command. -/
def decodeTableWord (nbits w : Nat) : Option Instr :=
  if nbits ≤ 32 then
    match decodeBytes (bytesOfWord (BitVec.ofNat 32 (w % 2 ^ nbits))) with
    | .ok (i, _) => some i
    | .error _ => none
  else none

/-- A word of the one format CMDW (R100). -/
def cmdw (op pix : BitVec 4) (r g b : Byte) : Word := op ++ pix ++ r ++ g ++ b

/-- The word of a command; "an assembler writes ignored fields as 0" (R108). -/
def encode : Instr → Word
  | .nop => cmdw 0x0 0 0 0 0
  | .init => cmdw 0x1 0 0 0 0
  | .enable => cmdw 0x2 0 0 0 0
  | .disable => cmdw 0x3 0 0 0 0
  | .setColor pix r g b => cmdw 0x4 pix r g b
  | .setAll r g b => cmdw 0x5 0 r g b
  | .clrStatus m => cmdw 0x6 0 0 0 (m.setWidth 8)
  | .reserved7 => cmdw 0x7 0 0 0 0
  | .reserved8F op => cmdw op 0 0 0 0

/-- The bytes of a command, in the order of 20_memory R73. -/
def encodeBytes (i : Instr) : List Byte := bytesOfWord (encode i)

/-- The opcode a command is encoded with (R102). -/
def opcodeOf : Instr → BitVec 4
  | .nop => 0x0
  | .init => 0x1
  | .enable => 0x2
  | .disable => 0x3
  | .setColor _ _ _ _ => 0x4
  | .setAll _ _ _ => 0x5
  | .clrStatus _ => 0x6
  | .reserved7 => 0x7
  | .reserved8F op => op

/-- The bits of its word that a command uses: the `x` bits of R102 are the zeros (R104). -/
def usedBits : Instr → Word
  | .setColor _ _ _ _ => 0xFFFFFFFF
  | .setAll _ _ _ => 0xF0FFFFFF
  | .clrStatus _ => 0xF000003F
  | .nop => 0xF0000000
  | .init => 0xF0000000
  | .enable => 0xF0000000
  | .disable => 0xF0000000
  | .reserved7 => 0xF0000000
  | .reserved8F _ => 0xF0000000

end Sys2Proof
end

