-- ==== Sys2Proof/Config.lean ====
section
/-! DEFINITION. What a build fixes (10_state R30, 00_scope R11) and the free values. The opaque
constants have no body, so a claim that holds of them holds of every build and every environment. -/

namespace Sys2Proof

/-- `Channel: enum {Red, Green, Blue}` (R7). -/
inductive Channel
  | red
  | green
  | blue
  deriving DecidableEq, Repr, Inhabited

/-- The phase-sequencing policy, a build-time choice (R8). -/
inductive Policy
  | fivePhase
  | threeStage
  deriving DecidableEq, Repr, Inhabited

/-- The build parameters. A divisor is kept less one, so that every value is a legal one: DIV_R and
DIV_G in 1..255, DIV_B in 1..37 (R10, 40_gamma_rom R135; log 4). `atomic` is COLOR_WRITE_ATOMIC. -/
structure Build where
  policy   : Policy
  divRLess : Fin 255
  divGLess : Fin 255
  divBLess : Fin 37
  atomic   : Bool
  deriving DecidableEq, Repr, Inhabited

/-- The build this block is (R8, R10, R11, 41_color_store R153): OPEN parameters, uninterpreted (log 4). -/
opaque Config.build : Build

/-- The base address of the register window in the host's address map (20_memory R71): OPEN (log 11). -/
opaque Config.base : Nat

/-- The free value behind every choice the spec leaves to the environment (20_memory R78, 42 R171,
41 R153): the move number `n` that no list in State settles (log 1). -/
opaque Config.freeMove : Nat → Move

/-- How much on-time the Port's duty function gives DriveLevel `254 - n` beyond DriveLevel `255 - n`
(60_exceptions R271, D41): OPEN (log 13). -/
opaque Config.dutyStep : Nat → Nat

end Sys2Proof
end

