-- ==== Sys2Proof/Machine/State.lean ====
section
/-! DEFINITION. The state of the block (10_state R33 to R46), plain data, the reasons a step can stop,
and the state after power-on reset (R55, R290). -/

namespace Sys2Proof.Machine

/-- Three values of 8 bits, one per channel: a pixel's DriveLevels (R33) or a set of compare values (R40, R41). -/
structure Triple where
  r : Byte
  g : Byte
  b : Byte
  deriving DecidableEq, Repr

/-- The Pixel Color Store S.D: one DriveLevel triple per pixel, 18 cells of 8 bits (R33, R70). -/
abbrev Store := Vector Triple 6

/-- One micro-write `S.D[pix].ch <- val` (41_color_store R150). -/
structure MicroWrite where
  pix : Pixel
  ch  : Channel
  val : Byte
  deriving DecidableEq, Repr

/-- The operations consumed from the Hardware Timer/PWM Port (00_scope R15, 60_exceptions R271). -/
inductive PortAction
  | anodeSet (p : Pixel) (on : Bool)
  | compare (c : Channel) (v : Byte)
  | boost (on : Bool)
  | timersStart
  | timersStop
  deriving DecidableEq, Repr

/-- What a step shows outside beside the lines (00_scope R15, R16; 60_exceptions R266; 44 R241; log 6). -/
inductive Output
  /-- A port action, in the order performed. -/
  | port (a : PortAction)
  /-- `emit FRAME`: the frame-complete strobe. -/
  | frame
  /-- The word a host read returns. -/
  | readData (v : Word)
  deriving DecidableEq, Repr

/-- The conditions the block detects and records (60_exceptions R261). -/
inductive Condition
  | frameComplete
  | overrun
  | pixelRange
  | badCommand
  deriving DecidableEq, Repr

/-- The state. The last four fields are the model's own: the outside world's plan and the step's output. -/
structure State where
  /-- S.D (R33). -/
  store       : Store
  /-- S.cur (R34). -/
  cur         : BitVec 3
  /-- S.phase (R34, R35). -/
  phase       : BitVec 3
  /-- S.prev (R34). -/
  prev        : BitVec 3
  /-- S.initialized (R36). -/
  initialized : Bool
  /-- S.run (R37). -/
  run         : Bool
  /-- S.anode: bit p is the line of pixel p (R38). -/
  anode       : BitVec 6
  /-- S.boost (R39). -/
  boost       : Bool
  /-- S.cmp_buf (R40). -/
  cmpBuf      : Triple
  /-- S.cmp_act (R41). -/
  cmpAct      : Triple
  /-- S.frame_pend (R42). -/
  framePend   : Bool
  /-- S.frame_cnt (R42). -/
  frameCnt    : Half
  /-- S.ovr (R43). -/
  ovr         : Bool
  /-- S.ovr_cnt (R43). -/
  ovrCnt      : Half
  /-- S.err_pixel (R44). -/
  errPixel    : Bool
  /-- S.err_cmd (R44). -/
  errCmd      : Bool
  /-- S.ie_frame (R44). -/
  ieFrame     : Bool
  /-- S.ie_ovr (R44). -/
  ieOvr       : Bool
  /-- S.ie_err (R44). -/
  ieErr       : Bool
  /-- S.pending, in the order the command lists its micro-writes (R46; log 10). -/
  pending     : List MicroWrite
  /-- The HOST's accesses not yet performed, in issue order (20_memory R78, R80; log 2). -/
  hostQ       : List HostAccess
  /-- The agents' next moves (20_memory R78; log 1). -/
  moves       : List Move
  /-- How many free moves have been drawn (log 1). -/
  draws       : Nat
  /-- The output trace of the step (00_scope R16; log 6). -/
  out         : List Output
  deriving DecidableEq, Repr

/-- Why the machine stops. -/
inductive Fault
  /-- A host access of a size other than 4 bytes or at an offset not a multiple of 4 (20_memory R74,
  60_exceptions R262): raised by a HOST step, with the offset. Safe: the access has no effect (log 7). -/
  | busError (off : BitVec 5)
  /-- A tick from a phase of N or more or a pixel value of P or more (42 R179, I11): raised by a PORT
  step. Safe: no run reaches such a state (log 8). -/
  | illegalScan
  deriving DecidableEq, Repr

/-- Why an instruction has no meaning. -/
inductive Refusal
  /-- The instruction is not modelled: raised by `exec` alone, and no arm raises it. Safe. -/
  | notModelled (mnemonic : String)
  deriving DecidableEq, Repr

/-- The off sentinel in all three channels. -/
def Triple.off : Triple := ⟨255, 255, 255⟩

/-- Power-on reset (R55, R290). The store is unspecified there: this model names 0 (log 5). -/
def State.reset : State where
  store       := Vector.replicate 6 ⟨0, 0, 0⟩
  cur         := 0
  phase       := 0
  prev        := 5
  initialized := false
  run         := false
  anode       := 0
  boost       := false
  cmpBuf      := Triple.off
  cmpAct      := Triple.off
  framePend   := false
  frameCnt    := 0
  ovr         := false
  ovrCnt      := 0
  errPixel    := false
  errCmd      := false
  ieFrame     := false
  ieOvr       := false
  ieErr       := false
  pending     := []
  hostQ       := []
  moves       := []
  draws       := 0
  out         := []

end Sys2Proof.Machine
end

