-- ==== Sys2Proof/Machine/Rom.lean ====
section
/-! DEFINITION. The Gamma/Drive Mapper: the GAMMA table (40_gamma_rom R131) and the drive ROM made from it and
the build's divisors (R132, R133), a pure function of channel, input and build (R130, R137). -/

namespace Sys2Proof.Machine

/-- GAMMA[0..15]. -/
def gammaRow0 : List Nat := [0, 0, 0, 0, 0, 0, 0, 0, 0, 0, 0, 0, 0, 0, 0, 0]

/-- GAMMA[16..31]. -/
def gammaRow1 : List Nat := [0, 0, 0, 0, 0, 0, 0, 0, 0, 0, 0, 0, 1, 1, 1, 1]

/-- GAMMA[32..47]. -/
def gammaRow2 : List Nat := [1, 1, 1, 1, 1, 1, 1, 1, 1, 2, 2, 2, 2, 2, 2, 2]

/-- GAMMA[48..63]. -/
def gammaRow3 : List Nat := [2, 3, 3, 3, 3, 3, 3, 3, 4, 4, 4, 4, 4, 5, 5, 5]

/-- GAMMA[64..79]. -/
def gammaRow4 : List Nat := [5, 6, 6, 6, 6, 7, 7, 7, 7, 8, 8, 8, 9, 9, 9, 10]

/-- GAMMA[80..95]. -/
def gammaRow5 : List Nat := [10, 10, 11, 11, 11, 12, 12, 13, 13, 13, 14, 14, 15, 15, 16, 16]

/-- GAMMA[96..111]. -/
def gammaRow6 : List Nat := [17, 17, 18, 18, 19, 19, 20, 20, 21, 21, 22, 22, 23, 24, 24, 25]

/-- GAMMA[112..127]. -/
def gammaRow7 : List Nat := [25, 26, 27, 27, 28, 29, 29, 30, 31, 32, 32, 33, 34, 35, 35, 36]

/-- GAMMA[128..143]. -/
def gammaRow8 : List Nat := [37, 38, 39, 39, 40, 41, 42, 43, 44, 45, 46, 47, 48, 49, 50, 50]

/-- GAMMA[144..159]. -/
def gammaRow9 : List Nat := [51, 52, 54, 55, 56, 57, 58, 59, 60, 61, 62, 63, 64, 66, 67, 68]

/-- GAMMA[160..175]. -/
def gammaRow10 : List Nat := [69, 70, 72, 73, 74, 75, 77, 78, 79, 81, 82, 83, 85, 86, 87, 89]

/-- GAMMA[176..191]. -/
def gammaRow11 : List Nat := [90, 92, 93, 95, 96, 98, 99, 101, 102, 104, 105, 107, 109, 110, 112, 114]

/-- GAMMA[192..207]. -/
def gammaRow12 : List Nat := [115, 117, 119, 120, 122, 124, 126, 127, 129, 131, 133, 135, 137, 138, 140, 142]

/-- GAMMA[208..223]. -/
def gammaRow13 : List Nat := [144, 146, 148, 150, 152, 154, 156, 158, 160, 162, 164, 167, 169, 171, 173, 175]

/-- GAMMA[224..239]. -/
def gammaRow14 : List Nat := [177, 180, 182, 184, 186, 189, 191, 193, 196, 198, 200, 203, 205, 208, 210, 213]

/-- GAMMA[240..255]. -/
def gammaRow15 : List Nat := [215, 218, 220, 223, 225, 228, 231, 233, 236, 239, 241, 244, 247, 249, 252, 255]

/-- The 256 entries of GAMMA, in index order (R131; log 16). -/
def gammaTable : List Nat :=
  gammaRow0 ++ gammaRow1 ++ gammaRow2 ++ gammaRow3 ++ gammaRow4 ++ gammaRow5 ++ gammaRow6 ++ gammaRow7 ++
  gammaRow8 ++ gammaRow9 ++ gammaRow10 ++ gammaRow11 ++ gammaRow12 ++ gammaRow13 ++ gammaRow14 ++ gammaRow15

/-- GAMMA[l] (R131). -/
def gamma (l : Byte) : Nat := gammaTable.getD l.toNat 0

/-- DIV_R, DIV_G, DIV_B (R10, R133, R136): each channel its own constant. -/
def divisor (b : Build) : Channel → Nat
  | .red => b.divRLess.val + 1
  | .green => b.divGLess.val + 1
  | .blue => b.divBLess.val + 1

/-- The channel codes Red 0, Green 1, Blue 2 (R7). -/
def channelCode : Channel → BitVec 2
  | .red => 0
  | .green => 1
  | .blue => 2

/-- The channel a code names; "the code 3 names no channel" (R7). -/
def channelOf? (c : BitVec 2) : Option Channel :=
  match c with
  | 0#2 => some .red
  | 1#2 => some .green
  | 2#2 => some .blue
  | _ => none

/-- Look up, scale down by floor division, invert (R133). No step wraps (R134, R137). -/
def driveLevel (b : Build) (c : Channel) (l : Byte) : Byte :=
  BitVec.ofNat 8 (255 - gamma l / divisor b c)

/-- The 1024 cells of the drive ROM, addressed by the code of the channel over the input (R132, R133). -/
def romCell (b : Build) (a : BitVec 10) : Byte :=
  match channelOf? (a.extractLsb' 8 2) with
  | some c => driveLevel b c (a.extractLsb' 0 8)
  | none => 255

/-- `ROM(c, l)`, which is `mapToDrive` (R17, R130): the cell at the address of `c` and `l`. -/
def rom (b : Build) (c : Channel) (l : Byte) : Byte := romCell b (channelCode c ++ l)

end Sys2Proof.Machine
end

