-- ==== Sys2Proof/Machine/Operands.lean ====
section
/-! DEFINITION. Operands: pixel indices as command fields and as state fields, and the micro-writes a
colour command's operands stand for (30_encoding R103, 41_color_store R150, R151, R157). -/

namespace Sys2Proof.Machine

/-- PIX as a pixel: the unsigned 4-bit value, in range below P = 6 (R103). -/
def pixelOfField? (pix : BitVec 4) : Option Pixel :=
  if h : pix.toNat < 6 then some ⟨pix.toNat, h⟩ else none

/-- A 3-bit state field as a pixel (00_scope R6: 6 and 7 are out of range). -/
def pixelOfState? (v : BitVec 3) : Option Pixel :=
  if h : v.toNat < 6 then some ⟨v.toNat, h⟩ else none

/-- A pixel as a 3-bit state field (10_state R34). -/
def fieldOfPixel (p : Pixel) : BitVec 3 := BitVec.ofNat 3 p.val

/-- `next(p) = (p + 1) mod P` (00_scope R17). -/
def nextPixel (p : Pixel) : Pixel := ⟨(p.val + 1) % 6, Nat.mod_lt _ (by decide)⟩

/-- The pixels in ascending order (00_scope R15, 42 R178). -/
def pixels : List Pixel := [0, 1, 2, 3, 4, 5]

/-- The three micro-writes that store the mapped colour for one pixel (R151). -/
def pixelWrites (b : Build) (p : Pixel) (r g bl : Byte) : List MicroWrite :=
  [⟨p, .red, rom b .red r⟩, ⟨p, .green, rom b .green g⟩, ⟨p, .blue, rom b .blue bl⟩]

/-- The 3P = 18 micro-writes of SET_ALL (R157). -/
def allWrites (b : Build) (r g bl : Byte) : List MicroWrite :=
  pixels.flatMap (fun p => pixelWrites b p r g bl)

end Sys2Proof.Machine
end

