-- ==== Sys2Proof/Machine/Flags.lean ====
section
/-! DEFINITION. The two counters, the interrupt line and the build's STATUS bit (10_state R42, R43, R45, R50). -/

namespace Sys2Proof.Machine

/-- FRAME_CNT counts modulo 2^16 (R42). -/
def wrapInc (v : Half) : Half := v + 1

/-- OVR_CNT saturates: `min(v + 1, 0xFFFF)` (R43, 42 R173). -/
def satInc (v : Half) : Half := if v = 0xFFFF then 0xFFFF else v + 1

/-- The level-sensitive interrupt line (R45, 60_exceptions R265). -/
def irq (s : State) : Bool :=
  (s.framePend && s.ieFrame) || (s.ovr && s.ieOvr) || ((s.errPixel || s.errCmd) && s.ieErr)

/-- STATUS[6]: 0 for FIVE_PHASE, 1 for THREE_STAGE (R50, 44 R241). -/
def policyBit (b : Build) : Bool :=
  match b.policy with
  | .fivePhase => false
  | .threeStage => true

/-- The code of a condition: the STATUS bit that records it (60_exceptions R261). -/
def conditionCode : Condition → Nat
  | .frameComplete => 2
  | .overrun => 3
  | .pixelRange => 4
  | .badCommand => 5

end Sys2Proof.Machine
end

