-- ==== Sys2Proof/Machine/Ops.lean ====
section
/-! DEFINITION. The named operations over the state: cells of the store, port actions, the ENGINE, the latch, and
the ONE operation that records a detected condition with the one that clears it. The block has no traps (60_exceptions
R260, R268): recording a condition is what stands for exception entry, and clearing it for the return. -/

namespace Sys2Proof.Machine

/-- The value of one channel. -/
def Triple.get (t : Triple) : Channel → Byte
  | .red => t.r
  | .green => t.g
  | .blue => t.b

/-- The triple with one channel written. -/
def Triple.put (t : Triple) (c : Channel) (v : Byte) : Triple :=
  match c with
  | .red => { t with r := v }
  | .green => { t with g := v }
  | .blue => { t with b := v }

/-- `S.D[p].c`, one cell of the store (10_state R33). -/
def cell (s : State) (p : Pixel) (c : Channel) : Byte := (s.store[p]).get c

/-- One micro-write, atomic for its cell (41_color_store R150, 20_memory R81). -/
def writeCell (m : MicroWrite) (s : State) : State :=
  { s with store := s.store.set m.pix ((s.store[m.pix]).put m.ch m.val) }

/-- Micro-writes one after another, in one step. -/
def writeCells (ms : List MicroWrite) (s : State) : State :=
  ms.foldl (fun t m => writeCell m t) s

/-- The command engine takes a micro-write set: all of it now, or as pending work (41_color_store R153). -/
def submit (b : Build) (ms : List MicroWrite) (s : State) : State :=
  if b.atomic then writeCells ms s else { s with pending := ms }

/-- One ENGINE step: the chosen pending micro-write is performed and leaves the set (41_color_store R153). -/
def engineStep (k : Nat) (s : State) : State :=
  match s.pending[k % s.pending.length]? with
  | none => s
  | some m => { writeCell m s with pending := s.pending.eraseIdx (k % s.pending.length) }

/-- Record one output of the step (00_scope R15, R16). -/
def emit (o : Output) (s : State) : State := { s with out := s.out ++ [o] }

/-- One anode line set or cleared. -/
def putAnode (v : BitVec 6) (p : Pixel) (on : Bool) : BitVec 6 :=
  if on then v ||| (1#6 <<< p.val) else v &&& ~~~(1#6 <<< p.val)

/-- What a port action does to the state: the line or buffer it writes (10_state R37 to R40). -/
def applyPort (a : PortAction) (s : State) : State :=
  match a with
  | .anodeSet p on => { s with anode := putAnode s.anode p on }
  | .compare c v => { s with cmpBuf := s.cmpBuf.put c v }
  | .boost on => { s with boost := on }
  | .timersStart => { s with run := true }
  | .timersStop => { s with run := false }

/-- `port <action>` (00_scope R15). -/
def port (a : PortAction) (s : State) : State := emit (.port a) (applyPort a s)

/-- Port actions of one step "take effect in the order written" (00_scope R15, 42 R176). -/
def portAll (as : List PortAction) (s : State) : State := as.foldl (fun t a => port a t) s

/-- `AllAnodesOff` (00_scope R15). -/
def allAnodesOff : List PortAction := pixels.map (fun p => .anodeSet p false)

/-- The three compare writes, Red, Green, Blue. -/
def compareAll (r g b : Byte) : List PortAction := [.compare .red r, .compare .green g, .compare .blue b]

/-- Record a detected condition: its sticky flag, and its counter where it has one (60_exceptions R261, R268). -/
def recordCondition (c : Condition) (s : State) : State :=
  match c with
  | .frameComplete => { s with framePend := true, frameCnt := wrapInc s.frameCnt }
  | .overrun => { s with ovr := true, ovrCnt := satInc s.ovrCnt }
  | .pixelRange => { s with errPixel := true }
  | .badCommand => { s with errCmd := true }

/-- Clear the sticky flags and counters a mask selects (44 R243). -/
def clearConditions (m : BitVec 6) (s : State) : State :=
  { s with
    framePend := !m.getLsbD 0 && s.framePend
    ovr       := !m.getLsbD 1 && s.ovr
    errPixel  := !m.getLsbD 2 && s.errPixel
    errCmd    := !m.getLsbD 3 && s.errCmd
    frameCnt  := if m.getLsbD 4 then 0 else s.frameCnt
    ovrCnt    := if m.getLsbD 5 then 0 else s.ovrCnt }

/-- The latch of the three compare buffers, together (42 R172). -/
def latch (s : State) : State := { s with cmpAct := s.cmpBuf }

/-- `scan <- (c, f, p)` (00_scope R13). -/
def setScan (c f p : BitVec 3) (s : State) : State := { s with cur := c, phase := f, prev := p }

/-- Every cell of the store at 255 (43 R222). -/
def allOffStore : Store := Vector.replicate 6 Triple.off

end Sys2Proof.Machine
end

