-- ==== Sys2Proof/Machine/ColorStore.lean ====
section
/-! DEFINITION. The meanings of SET_COLOR and SET_ALL (41_color_store R151, R152, R157), over any build. A colour
command is accepted whether or not the block is enabled or initialized (R156). -/

namespace Sys2Proof.Machine

/-- SET_COLOR on a build: out of range, ERR_PIXEL and nothing else (R152); in range, its three micro-writes (R151). -/
def setColor (bd : Build) (pix : BitVec 4) (r g b : Byte) (s : State) : State :=
  match pixelOfField? pix with
  | none => recordCondition .pixelRange s
  | some p => submit bd (pixelWrites bd p r g b) s

/-- SET_ALL on a build: its eighteen micro-writes (R157). -/
def setAll (bd : Build) (r g b : Byte) (s : State) : State := submit bd (allWrites bd r g b) s

/-- SET_COLOR (R151). -/
def execSetColor (pix : BitVec 4) (r g b : Byte) (s : State) : Host.Outcome State Fault Refusal :=
  .next (setColor Config.build pix r g b s)

/-- SET_ALL (R157). -/
def execSetAll (r g b : Byte) (s : State) : Host.Outcome State Fault Refusal :=
  .next (setAll Config.build r g b s)

end Sys2Proof.Machine
end

