-- ==== Sys2Proof/Machine/Lifecycle.lean ====
section
/-! DEFINITION. The meanings of INIT, ENABLE and DISABLE (43_lifecycle R220, R222, R226). Each is one HOST step; its port
actions stand in the order the rule writes them. -/

namespace Sys2Proof.Machine

/-- ENABLE's first actions: safe outputs before the restart (R222). -/
def enableMakeSafe : List PortAction := allAnodesOff ++ [.boost false]

/-- ENABLE's last actions: the compare buffers dark, then the timers (R222). -/
def enableStart : List PortAction := compareAll 255 255 255 ++ [.timersStart]

/-- "Reset Pixel Color Store to all-off" and "reset ScanState to its initial values" (R222). -/
def resetScanAndStore (s : State) : State := setScan 0 0 5 { s with store := allOffStore }

/-- ENABLE (R222). -/
def enable (s : State) : State := portAll enableStart (resetScanAndStore (portAll enableMakeSafe s))

/-- DISABLE's actions: the timers stop first, then the lines are forced off (R226, R227). -/
def disableActions : List PortAction := .timersStop :: allAnodesOff ++ [.boost false]

/-- INIT: the PWM outputs are configured, then ENABLE in the same step (R220). -/
def execInit (s : State) : Host.Outcome State Fault Refusal := .next (enable { s with initialized := true })

/-- ENABLE (R222), in every state: before INIT (R225) and while enabled (R224) too. -/
def execEnable (s : State) : Host.Outcome State Fault Refusal := .next (enable s)

/-- DISABLE (R226). -/
def execDisable (s : State) : Host.Outcome State Fault Refusal := .next (portAll disableActions s)

end Sys2Proof.Machine
end

