-- ==== Sys2Proof/Machine/StatusCmd.lean ====
section
/-! DEFINITION. The meanings of NOP, CLR_STATUS and the reserved opcodes (44_status_and_bus R240, R243, R246). -/

namespace Sys2Proof.Machine

/-- NOP: no state change (R240). -/
def execNop (s : State) : Host.Outcome State Fault Refusal := .next s

/-- CLR_STATUS: clear what the mask selects (R243). -/
def execClrStatus (m : BitVec 6) (s : State) : Host.Outcome State Fault Refusal :=
  .next (clearConditions m s)

/-- Opcode 0x7: `S.err_cmd <- 1` (R246). -/
def execReserved7 (s : State) : Host.Outcome State Fault Refusal :=
  .next (recordCondition .badCommand s)

/-- Opcodes 0x8..0xF: `S.err_cmd <- 1`, whichever of them it is (R246). -/
def execReserved8F (_ : BitVec 4) (s : State) : Host.Outcome State Fault Refusal :=
  .next (recordCondition .badCommand s)

end Sys2Proof.Machine
end

