-- ==== Sys2Proof/Machine/Dispatch.lean ====
section
/-! DEFINITION. The dispatch of a command word to its meaning (30_encoding R101), one arm per constructor. -/

namespace Sys2Proof.Machine

def exec (i : Instr) (s : State) : Host.Outcome State Fault Refusal :=
  match i with
  | .nop => Sys2Proof.Machine.execNop s
  | .init => Sys2Proof.Machine.execInit s
  | .enable => Sys2Proof.Machine.execEnable s
  | .disable => Sys2Proof.Machine.execDisable s
  | .setColor pix r g b => Sys2Proof.Machine.execSetColor pix r g b s
  | .setAll r g b => Sys2Proof.Machine.execSetAll r g b s
  | .clrStatus m => Sys2Proof.Machine.execClrStatus m s
  | .reserved7 => Sys2Proof.Machine.execReserved7 s
  | .reserved8F op => Sys2Proof.Machine.execReserved8F op s

end Sys2Proof.Machine
end

