-- ==== Sys2Proof/Machine/Registers.lean ====
section
/-! DEFINITION. The register views of the state (10_state R49 to R54, 44 R241), the byte numbering of a register (20_memory
R73), the write of IRQ_CTRL (44 R242), and the window in the host's address map (20_memory R71, R88). -/

namespace Sys2Proof.Machine

/-- STATUS (R50, R241). -/
def statusWord (bd : Build) (s : State) : Word :=
  0#8 ++ s.anode ++ BitVec.ofBool s.boost ++ s.prev ++ s.phase ++ s.cur ++
  0#1 ++ BitVec.ofBool (policyBit bd) ++ BitVec.ofBool s.errCmd ++ BitVec.ofBool s.errPixel ++
  BitVec.ofBool s.ovr ++ BitVec.ofBool s.framePend ++ BitVec.ofBool s.run ++ BitVec.ofBool s.initialized

/-- COUNTERS (R52). -/
def countersWord (s : State) : Word := s.ovrCnt ++ s.frameCnt

/-- IRQ_CTRL (R51). -/
def irqCtrlWord (s : State) : Word :=
  0#29 ++ BitVec.ofBool s.ieErr ++ BitVec.ofBool s.ieOvr ++ BitVec.ofBool s.ieFrame

/-- CMP_ACT and CMP_BUF as words: Blue, Green, Red from bit 23 down (R53, R54). -/
def tripleWord (t : Triple) : Word := 0#8 ++ t.b ++ t.g ++ t.r

/-- What a read of the slot at `off` returns (20_memory R72, R74; 44 R241). CMD and the reserved slots
0x18 and 0x1C read 0, and no other offset is admitted. -/
def regValue (bd : Build) (off : BitVec 5) (s : State) : Word :=
  match off with
  | 0x04#5 => statusWord bd s
  | 0x08#5 => countersWord s
  | 0x0C#5 => irqCtrlWord s
  | 0x10#5 => tripleWord s.cmpAct
  | 0x14#5 => tripleWord s.cmpBuf
  | _ => 0

/-- Byte offset `4k + j` holds bits `8j+7 : 8j` of the register of slot `k` (20_memory R73). -/
def regByte (bd : Build) (off : BitVec 5) (s : State) : Byte :=
  (regValue bd (off &&& 0x1C#5) s).extractLsb' (8 * (off.toNat % 4)) 8

/-- The write of IRQ_CTRL: the three enables from bits 2:0 (R51, 44 R242). -/
def writeIrqCtrl (v : Word) (s : State) : State :=
  { s with ieErr := v.getLsbD 2, ieOvr := v.getLsbD 1, ieFrame := v.getLsbD 0 }

/-- A host access at an absolute address: the window decodes exactly the 32 bytes from BASE, and an
access elsewhere does not reach the block (20_memory R71, R88; log 11). -/
def accessAt (kind : AccessKind) (addr size : Nat) : Option HostAccess :=
  if Config.base ≤ addr ∧ addr < Config.base + 32 then
    some ⟨kind, BitVec.ofNat 5 (addr - Config.base), size⟩
  else none

end Sys2Proof.Machine
end

