-- ==== Sys2Proof/Machine/Scan.lean ====
section
/-! DEFINITION. The scan scheduler (42_scan_scheduler): the port actions of each phase of both policies, Advance, the
tick and the boundary, over any build. `i` is the current pixel and `d` the store at the tick's one point (R177). -/

namespace Sys2Proof.Machine

/-- N (00_scope R8). -/
def phaseCount (bd : Build) : Nat :=
  match bd.policy with
  | .fivePhase => 5
  | .threeStage => 3

/-- The boost decision on the pixel's Blue: `port Boost(true)` if it is on, else no action (R180, R188). -/
def boostIfBlue (i : Pixel) (d : Store) : List PortAction :=
  if (d[i]).b = 255 then [] else [.boost true]

/-- FIVE_PHASE phase 0 (R180). -/
def preCharge (i : Pixel) (d : Store) : List PortAction :=
  allAnodesOff ++ boostIfBlue i d ++ compareAll 255 255 255

/-- FIVE_PHASE phase 1 (R181). -/
def settle (i : Pixel) (d : Store) : List PortAction := .boost false :: compareAll 255 255 (d[i]).b

/-- FIVE_PHASE phase 2 (R182). -/
def showBlue (i : Pixel) (d : Store) : List PortAction :=
  .boost false :: allAnodesOff ++ .anodeSet i true :: compareAll (d[i]).r 255 255

/-- FIVE_PHASE phase 3 (R183). -/
def showRed (i : Pixel) (d : Store) : List PortAction := compareAll 255 (d[i]).g 255

/-- FIVE_PHASE phase 4 (R184). -/
def showGreen : List PortAction := compareAll 255 255 255

/-- THREE_STAGE stage 0 (R188). -/
def deactivateAndDecide (i : Pixel) (d : Store) : List PortAction := allAnodesOff ++ boostIfBlue i d

/-- THREE_STAGE stage 1 (R189). -/
def activateCurrent (i : Pixel) : List PortAction := .boost false :: allAnodesOff ++ [.anodeSet i true]

/-- THREE_STAGE stage 2 (R190): the values of the following pixel. -/
def preloadNext (i : Pixel) (d : Store) : List PortAction :=
  compareAll (d[nextPixel i]).r (d[nextPixel i]).g (d[nextPixel i]).b

/-- The phase codes of FIVE_PHASE (10_state R35); no actions for a code of N or more (R179). -/
def fivePhase (f : BitVec 3) (i : Pixel) (d : Store) : Option (List PortAction) :=
  match f with
  | 0#3 => some (preCharge i d)
  | 1#3 => some (settle i d)
  | 2#3 => some (showBlue i d)
  | 3#3 => some (showRed i d)
  | 4#3 => some showGreen
  | _ => none

/-- The phase codes of THREE_STAGE (10_state R35). -/
def threeStage (f : BitVec 3) (i : Pixel) (d : Store) : Option (List PortAction) :=
  match f with
  | 0#3 => some (deactivateAndDecide i d)
  | 1#3 => some (activateCurrent i)
  | 2#3 => some (preloadNext i d)
  | _ => none

/-- The action of a phase under the build's policy (R174). -/
def phaseActions (bd : Build) (f : BitVec 3) (i : Pixel) (d : Store) : Option (List PortAction) :=
  match bd.policy with
  | .fivePhase => fivePhase f i d
  | .threeStage => threeStage f i d

/-- FrameComplete (R193): the FRAME event, the flag and the count. -/
def frameComplete (s : State) : State := recordCondition .frameComplete (emit .frame s)

/-- Advance (R178), for the current pixel `i`. -/
def advance (bd : Build) (i : Pixel) (s : State) : State :=
  if s.phase.toNat < phaseCount bd - 1 then
    { s with phase := s.phase + 1 }
  else
    setScan (fieldOfPixel (nextPixel i)) 0 (fieldOfPixel i) (if i = 5 then frameComplete s else s)

/-- The pixel a tick works on: none where `S.cur` or `S.prev` holds P or more (R179, I11; log 8). -/
def scanPixel? (s : State) : Option Pixel :=
  match pixelOfState? s.cur, pixelOfState? s.prev with
  | some i, some _ => some i
  | _, _ => none

/-- The tick (R174): the phase's port actions, then Advance. A tick from an illegal scan state faults (R179). -/
def tick (bd : Build) (s : State) : Host.Outcome State Fault Refusal :=
  match scanPixel? s with
  | none => .fault .illegalScan
  | some i =>
    match phaseActions bd s.phase i s.store with
    | none => .fault .illegalScan
    | some as => .next (advance bd i (portAll as s))

/-- The overrun record of a late boundary (R173). -/
def overrunRecord (late : Bool) (s : State) : State := if late then recordCondition .overrun s else s

/-- The boundary: latch, overrun record, tick, in this order and as one step (R170, 60_exceptions R267). -/
def boundary (bd : Build) (late : Bool) (s : State) : Host.Outcome State Fault Refusal :=
  tick bd (overrunRecord late (latch s))

/-- Boundaries one after another, with nothing between them. -/
def boundaries (bd : Build) : List Bool → State → Host.Outcome State Fault Refusal
  | [], s => .next s
  | late :: rest, s =>
    match boundary bd late s with
    | .next t => boundaries bd rest t
    | .fault r => .fault r
    | .refused r => .refused r

/-- One PORT step: a boundary while `S.run = 1`, none otherwise (R171). -/
def portStep (bd : Build) (late : Bool) (s : State) : Host.Outcome State Fault Refusal :=
  if s.run then boundary bd late s else .next s

end Sys2Proof.Machine
end

