-- ==== Sys2Proof/Machine/Agents.lean ====
section
/-! DEFINITION. The three agents HOST, ENGINE and PORT (20_memory R78), which of them moves, and the presentation of
a CMD write. A move of an agent with no enabled step changes nothing (log 3). -/

namespace Sys2Proof.Machine

/-- A host write (20_memory R74): a command word, the interrupt enables, or an ignored write (44 R242, R244, R245). -/
def hostWrite (off : BitVec 5) (v : Word) (s : State) : Host.Outcome State Fault Refusal :=
  match off with
  | 0x00#5 => exec (decodeWord v) s
  | 0x0C#5 => .next (writeIrqCtrl v s)
  | _ => .next s

/-- A host read: the register's value, and no side effect (20_memory R74, R76). -/
def hostRead (off : BitVec 5) (s : State) : Host.Outcome State Fault Refusal :=
  .next (emit (.readData (regValue Config.build off s)) s)

/-- An admitted access that does not hold (20_memory R74). -/
def hostAccess (a : HostAccess) (s : State) : Host.Outcome State Fault Refusal :=
  match a.kind with
  | .read => hostRead a.off s
  | .write v => hostWrite a.off v s

/-- One HOST step on the access presented first: size and alignment, then the hold, then the access
(20_memory R74, R80; 60_exceptions R263). An access that holds stays presented. -/
def hostStep (s : State) : Host.Outcome State Fault Refusal :=
  match s.hostQ with
  | [] => .next s
  | a :: q =>
    if a.admitted then
      if s.pending.isEmpty then hostAccess a { s with hostQ := q } else .next s
    else .fault (.busError a.off)

/-- One move (20_memory R78). -/
def runMove (m : Move) (s : State) : Host.Outcome State Fault Refusal :=
  match m with
  | .host => hostStep s
  | .engine k => .next (engineStep k s)
  | .port late => portStep Config.build late s
  | .issue a => .next { s with hostQ := s.hostQ ++ [a] }

/-- Which move is next: the first of State's list, or the free move of the counter (log 1). -/
def nextMove (s : State) : Move :=
  match s.moves with
  | m :: _ => m
  | [] => Config.freeMove s.draws

/-- The state a step starts its move from: the move taken, and a fresh output trace. -/
def takeMove (s : State) : State :=
  match s.moves with
  | _ :: ms => { s with moves := ms, out := [] }
  | [] => { s with draws := s.draws + 1, out := [] }

/-- One step of the block. -/
def agentStep (s : State) : Host.Outcome State Fault Refusal := runMove (nextMove s) (takeMove s)

/-- The write of a command word to CMD. -/
def cmdWrite (w : Word) : HostAccess := ⟨.write w, 0x00, 4⟩

/-- The state in which the next step is the HOST's write of `w` to CMD, with nothing pending to hold it (log 17). -/
def placeCommand (w : Word) (s : State) : State :=
  { s with hostQ := cmdWrite w :: s.hostQ, moves := .host :: s.moves, pending := [] }

end Sys2Proof.Machine
end

