-- ==== Sys2Proof/Laws/Decode.lean ====
section
/-! SUPPORT. The fields of a CMDW word, and the bytes of a word (30_encoding R100, 20_memory R73). -/

namespace Sys2Proof

@[simp] theorem fieldOp_cmdw (op pix : BitVec 4) (r g b : Byte) : fieldOp (cmdw op pix r g b) = op := by
  ext i hi
  simp only [fieldOp, cmdw, BitVec.getElem_extractLsb', BitVec.getLsbD_append]
  simp [show ¬ (28 + i < 8) by omega, show ¬ (28 + i - 8 < 8) by omega, show ¬ (28 + i - 8 - 8 < 8) by omega,
    show ¬ (28 + i - 8 - 8 - 8 < 4) by omega, show 28 + i - 8 - 8 - 8 - 4 = i by omega, BitVec.getLsbD_eq_getElem hi]

@[simp] theorem fieldPix_cmdw (op pix : BitVec 4) (r g b : Byte) : fieldPix (cmdw op pix r g b) = pix := by
  ext i hi
  simp only [fieldPix, cmdw, BitVec.getElem_extractLsb', BitVec.getLsbD_append]
  simp [show ¬ (24 + i < 8) by omega, show ¬ (24 + i - 8 < 8) by omega, show ¬ (24 + i - 8 - 8 < 8) by omega,
    show 24 + i - 8 - 8 - 8 = i by omega, BitVec.getLsbD_eq_getElem hi]
  intro h; omega

@[simp] theorem fieldR_cmdw (op pix : BitVec 4) (r g b : Byte) : fieldR (cmdw op pix r g b) = r := by
  ext i hi
  simp only [fieldR, cmdw, BitVec.getElem_extractLsb', BitVec.getLsbD_append]
  simp [show ¬ (16 + i < 8) by omega, show ¬ (16 + i - 8 < 8) by omega,
    show 16 + i - 8 - 8 = i by omega, BitVec.getLsbD_eq_getElem hi]
  intro h; omega

@[simp] theorem fieldG_cmdw (op pix : BitVec 4) (r g b : Byte) : fieldG (cmdw op pix r g b) = g := by
  ext i hi
  simp only [fieldG, cmdw, BitVec.getElem_extractLsb', BitVec.getLsbD_append]
  simp [show ¬ (8 + i < 8) by omega, show 8 + i - 8 = i by omega, BitVec.getLsbD_eq_getElem hi]
  intro h; omega

@[simp] theorem fieldB_cmdw (op pix : BitVec 4) (r g b : Byte) : fieldB (cmdw op pix r g b) = b := by
  ext i hi
  simp only [fieldB, cmdw, BitVec.getElem_extractLsb', BitVec.getLsbD_append]
  simp [hi]

@[simp] theorem fieldMask_cmdw (op pix : BitVec 4) (r g : Byte) (m : BitVec 6) :
    fieldMask (cmdw op pix r g (m.setWidth 8)) = m := by
  ext i hi
  simp only [fieldMask, cmdw, BitVec.getElem_extractLsb', BitVec.getLsbD_append]
  simp [show i < 8 by omega, BitVec.getLsbD_eq_getElem hi]

/-- The bytes of a word, put together again, are the word. -/
theorem wordOfBytes_bytesOfWord (w : Word) :
    wordOfBytes (w.extractLsb' 0 8) (w.extractLsb' 8 8) (w.extractLsb' 16 8) (w.extractLsb' 24 8) = w := by
  apply BitVec.eq_of_getLsbD_eq
  intro i hi
  simp only [wordOfBytes, BitVec.getLsbD_append, BitVec.getLsbD_extractLsb']
  split
  · simp [*]
  · split
    · simp [*, show 8 + (i - 8) = i by omega]
    · split
      · simp [*, show 16 + (i - 8 - 8) = i by omega]
      · simp [show i - 8 - 8 - 8 < 8 by omega, show 24 + (i - 8 - 8 - 8) = i by omega]

end Sys2Proof
end

