-- ==== Sys2Proof/Laws/PerInstr.lean ====
section
/-! SUPPORT. Per-instruction families: a command's word carries its opcode of the opcode map (30_encoding R102). -/

namespace Sys2Proof.Laws.CarriesOpcode

/-- The OP field of the instruction's word is its row's opcode. -/
def Statement (i : Instr) : Prop := fieldOp (encode i) = opcodeOf i

theorem nop : Statement .nop := fieldOp_cmdw ..
theorem init : Statement .init := fieldOp_cmdw ..
theorem enable : Statement .enable := fieldOp_cmdw ..
theorem disable : Statement .disable := fieldOp_cmdw ..
theorem setColor (pix : BitVec 4) (r g b : Byte) : Statement (.setColor pix r g b) := fieldOp_cmdw ..
theorem setAll (r g b : Byte) : Statement (.setAll r g b) := fieldOp_cmdw ..
theorem clrStatus (m : BitVec 6) : Statement (.clrStatus m) := fieldOp_cmdw ..
theorem reserved7 : Statement .reserved7 := fieldOp_cmdw ..
theorem reserved8F (op : BitVec 4) : Statement (.reserved8F op) := fieldOp_cmdw ..

end Sys2Proof.Laws.CarriesOpcode
end

