-- ==== Sys2Proof/Laws/Rom.lean ====
section
/-! SUPPORT. The small facts of the drive ROM: the cell at a channel's address, divisors, the table's bound. -/

namespace Sys2Proof.Machine

@[simp] theorem channelOf?_code (c : Channel) : channelOf? (channelCode c) = some c := by cases c <;> rfl

/-- The ROM cell of a channel and an input is its drive level (40 R133). -/
theorem rom_eq_driveLevel (bd : Build) (c : Channel) (l : Byte) : rom bd c l = driveLevel bd c l := by
  have h1 : (channelCode c ++ l : BitVec 10).extractLsb' 8 2 = channelCode c := by
    revert l; cases c <;> decide
  have h2 : (channelCode c ++ l : BitVec 10).extractLsb' 0 8 = l := by
    revert l; cases c <;> decide
  unfold rom romCell
  rw [h1, h2, channelOf?_code]

theorem divisor_pos (bd : Build) (c : Channel) : 1 ≤ divisor bd c := by cases c <;> simp [divisor]

theorem divisor_le (bd : Build) (c : Channel) : divisor bd c ≤ 255 := by
  cases c <;> simp only [divisor] <;> omega

theorem gamma_le : ∀ l : Byte, gamma l ≤ 255 := by decide

theorem gamma_zero : gamma 0 = 0 := by decide

/-- The drive level as a number: nothing wraps (40 R134, R137). -/
theorem rom_toNat (bd : Build) (c : Channel) (l : Byte) : (rom bd c l).toNat = 255 - gamma l / divisor bd c := by
  rw [rom_eq_driveLevel, driveLevel, BitVec.toNat_ofNat]
  exact Nat.mod_eq_of_lt (Nat.lt_of_le_of_lt (Nat.sub_le _ _) (by decide))

end Sys2Proof.Machine
end

