-- ==== Sys2Proof/Laws/State.lean ====
section
/-! SUPPORT. One lemma per field per named update of the state, so that no later proof unfolds a record update. -/

namespace Sys2Proof.Machine

@[simp] theorem Triple.get_red (t : Triple) : t.get .red = t.r := rfl
@[simp] theorem Triple.get_green (t : Triple) : t.get .green = t.g := rfl
@[simp] theorem Triple.get_blue (t : Triple) : t.get .blue = t.b := rfl
@[simp] theorem Triple.put_red (t : Triple) (v : Byte) : t.put .red v = ⟨v, t.g, t.b⟩ := rfl
@[simp] theorem Triple.put_green (t : Triple) (v : Byte) : t.put .green v = ⟨t.r, v, t.b⟩ := rfl
@[simp] theorem Triple.put_blue (t : Triple) (v : Byte) : t.put .blue v = ⟨t.r, t.g, v⟩ := rfl


/-! ### emit -/

@[simp] theorem emit_store (o : Output) (s : State) : (emit o s).store = s.store := rfl
@[simp] theorem emit_cur (o : Output) (s : State) : (emit o s).cur = s.cur := rfl
@[simp] theorem emit_phase (o : Output) (s : State) : (emit o s).phase = s.phase := rfl
@[simp] theorem emit_prev (o : Output) (s : State) : (emit o s).prev = s.prev := rfl
@[simp] theorem emit_initialized (o : Output) (s : State) : (emit o s).initialized = s.initialized := rfl
@[simp] theorem emit_run (o : Output) (s : State) : (emit o s).run = s.run := rfl
@[simp] theorem emit_anode (o : Output) (s : State) : (emit o s).anode = s.anode := rfl
@[simp] theorem emit_boost (o : Output) (s : State) : (emit o s).boost = s.boost := rfl
@[simp] theorem emit_cmpBuf (o : Output) (s : State) : (emit o s).cmpBuf = s.cmpBuf := rfl
@[simp] theorem emit_cmpAct (o : Output) (s : State) : (emit o s).cmpAct = s.cmpAct := rfl
@[simp] theorem emit_framePend (o : Output) (s : State) : (emit o s).framePend = s.framePend := rfl
@[simp] theorem emit_frameCnt (o : Output) (s : State) : (emit o s).frameCnt = s.frameCnt := rfl
@[simp] theorem emit_ovr (o : Output) (s : State) : (emit o s).ovr = s.ovr := rfl
@[simp] theorem emit_ovrCnt (o : Output) (s : State) : (emit o s).ovrCnt = s.ovrCnt := rfl
@[simp] theorem emit_errPixel (o : Output) (s : State) : (emit o s).errPixel = s.errPixel := rfl
@[simp] theorem emit_errCmd (o : Output) (s : State) : (emit o s).errCmd = s.errCmd := rfl
@[simp] theorem emit_ieFrame (o : Output) (s : State) : (emit o s).ieFrame = s.ieFrame := rfl
@[simp] theorem emit_ieOvr (o : Output) (s : State) : (emit o s).ieOvr = s.ieOvr := rfl
@[simp] theorem emit_ieErr (o : Output) (s : State) : (emit o s).ieErr = s.ieErr := rfl
@[simp] theorem emit_pending (o : Output) (s : State) : (emit o s).pending = s.pending := rfl
@[simp] theorem emit_hostQ (o : Output) (s : State) : (emit o s).hostQ = s.hostQ := rfl
@[simp] theorem emit_moves (o : Output) (s : State) : (emit o s).moves = s.moves := rfl
@[simp] theorem emit_draws (o : Output) (s : State) : (emit o s).draws = s.draws := rfl
@[simp] theorem emit_out (o : Output) (s : State) : (emit o s).out = s.out ++ [o] := rfl

/-! ### writeCell -/

@[simp] theorem writeCell_store (m : MicroWrite) (s : State) : (writeCell m s).store = s.store.set m.pix ((s.store[m.pix]).put m.ch m.val) := rfl
@[simp] theorem writeCell_cur (m : MicroWrite) (s : State) : (writeCell m s).cur = s.cur := rfl
@[simp] theorem writeCell_phase (m : MicroWrite) (s : State) : (writeCell m s).phase = s.phase := rfl
@[simp] theorem writeCell_prev (m : MicroWrite) (s : State) : (writeCell m s).prev = s.prev := rfl
@[simp] theorem writeCell_initialized (m : MicroWrite) (s : State) : (writeCell m s).initialized = s.initialized := rfl
@[simp] theorem writeCell_run (m : MicroWrite) (s : State) : (writeCell m s).run = s.run := rfl
@[simp] theorem writeCell_anode (m : MicroWrite) (s : State) : (writeCell m s).anode = s.anode := rfl
@[simp] theorem writeCell_boost (m : MicroWrite) (s : State) : (writeCell m s).boost = s.boost := rfl
@[simp] theorem writeCell_cmpBuf (m : MicroWrite) (s : State) : (writeCell m s).cmpBuf = s.cmpBuf := rfl
@[simp] theorem writeCell_cmpAct (m : MicroWrite) (s : State) : (writeCell m s).cmpAct = s.cmpAct := rfl
@[simp] theorem writeCell_framePend (m : MicroWrite) (s : State) : (writeCell m s).framePend = s.framePend := rfl
@[simp] theorem writeCell_frameCnt (m : MicroWrite) (s : State) : (writeCell m s).frameCnt = s.frameCnt := rfl
@[simp] theorem writeCell_ovr (m : MicroWrite) (s : State) : (writeCell m s).ovr = s.ovr := rfl
@[simp] theorem writeCell_ovrCnt (m : MicroWrite) (s : State) : (writeCell m s).ovrCnt = s.ovrCnt := rfl
@[simp] theorem writeCell_errPixel (m : MicroWrite) (s : State) : (writeCell m s).errPixel = s.errPixel := rfl
@[simp] theorem writeCell_errCmd (m : MicroWrite) (s : State) : (writeCell m s).errCmd = s.errCmd := rfl
@[simp] theorem writeCell_ieFrame (m : MicroWrite) (s : State) : (writeCell m s).ieFrame = s.ieFrame := rfl
@[simp] theorem writeCell_ieOvr (m : MicroWrite) (s : State) : (writeCell m s).ieOvr = s.ieOvr := rfl
@[simp] theorem writeCell_ieErr (m : MicroWrite) (s : State) : (writeCell m s).ieErr = s.ieErr := rfl
@[simp] theorem writeCell_pending (m : MicroWrite) (s : State) : (writeCell m s).pending = s.pending := rfl
@[simp] theorem writeCell_hostQ (m : MicroWrite) (s : State) : (writeCell m s).hostQ = s.hostQ := rfl
@[simp] theorem writeCell_moves (m : MicroWrite) (s : State) : (writeCell m s).moves = s.moves := rfl
@[simp] theorem writeCell_draws (m : MicroWrite) (s : State) : (writeCell m s).draws = s.draws := rfl
@[simp] theorem writeCell_out (m : MicroWrite) (s : State) : (writeCell m s).out = s.out := rfl

/-! ### latch -/

@[simp] theorem latch_store (s : State) : (latch s).store = s.store := rfl
@[simp] theorem latch_cur (s : State) : (latch s).cur = s.cur := rfl
@[simp] theorem latch_phase (s : State) : (latch s).phase = s.phase := rfl
@[simp] theorem latch_prev (s : State) : (latch s).prev = s.prev := rfl
@[simp] theorem latch_initialized (s : State) : (latch s).initialized = s.initialized := rfl
@[simp] theorem latch_run (s : State) : (latch s).run = s.run := rfl
@[simp] theorem latch_anode (s : State) : (latch s).anode = s.anode := rfl
@[simp] theorem latch_boost (s : State) : (latch s).boost = s.boost := rfl
@[simp] theorem latch_cmpBuf (s : State) : (latch s).cmpBuf = s.cmpBuf := rfl
@[simp] theorem latch_cmpAct (s : State) : (latch s).cmpAct = s.cmpBuf := rfl
@[simp] theorem latch_framePend (s : State) : (latch s).framePend = s.framePend := rfl
@[simp] theorem latch_frameCnt (s : State) : (latch s).frameCnt = s.frameCnt := rfl
@[simp] theorem latch_ovr (s : State) : (latch s).ovr = s.ovr := rfl
@[simp] theorem latch_ovrCnt (s : State) : (latch s).ovrCnt = s.ovrCnt := rfl
@[simp] theorem latch_errPixel (s : State) : (latch s).errPixel = s.errPixel := rfl
@[simp] theorem latch_errCmd (s : State) : (latch s).errCmd = s.errCmd := rfl
@[simp] theorem latch_ieFrame (s : State) : (latch s).ieFrame = s.ieFrame := rfl
@[simp] theorem latch_ieOvr (s : State) : (latch s).ieOvr = s.ieOvr := rfl
@[simp] theorem latch_ieErr (s : State) : (latch s).ieErr = s.ieErr := rfl
@[simp] theorem latch_pending (s : State) : (latch s).pending = s.pending := rfl
@[simp] theorem latch_hostQ (s : State) : (latch s).hostQ = s.hostQ := rfl
@[simp] theorem latch_moves (s : State) : (latch s).moves = s.moves := rfl
@[simp] theorem latch_draws (s : State) : (latch s).draws = s.draws := rfl
@[simp] theorem latch_out (s : State) : (latch s).out = s.out := rfl

/-! ### setScan -/

@[simp] theorem setScan_store (c f p : BitVec 3) (s : State) : (setScan c f p s).store = s.store := rfl
@[simp] theorem setScan_cur (c f p : BitVec 3) (s : State) : (setScan c f p s).cur = c := rfl
@[simp] theorem setScan_phase (c f p : BitVec 3) (s : State) : (setScan c f p s).phase = f := rfl
@[simp] theorem setScan_prev (c f p : BitVec 3) (s : State) : (setScan c f p s).prev = p := rfl
@[simp] theorem setScan_initialized (c f p : BitVec 3) (s : State) : (setScan c f p s).initialized = s.initialized := rfl
@[simp] theorem setScan_run (c f p : BitVec 3) (s : State) : (setScan c f p s).run = s.run := rfl
@[simp] theorem setScan_anode (c f p : BitVec 3) (s : State) : (setScan c f p s).anode = s.anode := rfl
@[simp] theorem setScan_boost (c f p : BitVec 3) (s : State) : (setScan c f p s).boost = s.boost := rfl
@[simp] theorem setScan_cmpBuf (c f p : BitVec 3) (s : State) : (setScan c f p s).cmpBuf = s.cmpBuf := rfl
@[simp] theorem setScan_cmpAct (c f p : BitVec 3) (s : State) : (setScan c f p s).cmpAct = s.cmpAct := rfl
@[simp] theorem setScan_framePend (c f p : BitVec 3) (s : State) : (setScan c f p s).framePend = s.framePend := rfl
@[simp] theorem setScan_frameCnt (c f p : BitVec 3) (s : State) : (setScan c f p s).frameCnt = s.frameCnt := rfl
@[simp] theorem setScan_ovr (c f p : BitVec 3) (s : State) : (setScan c f p s).ovr = s.ovr := rfl
@[simp] theorem setScan_ovrCnt (c f p : BitVec 3) (s : State) : (setScan c f p s).ovrCnt = s.ovrCnt := rfl
@[simp] theorem setScan_errPixel (c f p : BitVec 3) (s : State) : (setScan c f p s).errPixel = s.errPixel := rfl
@[simp] theorem setScan_errCmd (c f p : BitVec 3) (s : State) : (setScan c f p s).errCmd = s.errCmd := rfl
@[simp] theorem setScan_ieFrame (c f p : BitVec 3) (s : State) : (setScan c f p s).ieFrame = s.ieFrame := rfl
@[simp] theorem setScan_ieOvr (c f p : BitVec 3) (s : State) : (setScan c f p s).ieOvr = s.ieOvr := rfl
@[simp] theorem setScan_ieErr (c f p : BitVec 3) (s : State) : (setScan c f p s).ieErr = s.ieErr := rfl
@[simp] theorem setScan_pending (c f p : BitVec 3) (s : State) : (setScan c f p s).pending = s.pending := rfl
@[simp] theorem setScan_hostQ (c f p : BitVec 3) (s : State) : (setScan c f p s).hostQ = s.hostQ := rfl
@[simp] theorem setScan_moves (c f p : BitVec 3) (s : State) : (setScan c f p s).moves = s.moves := rfl
@[simp] theorem setScan_draws (c f p : BitVec 3) (s : State) : (setScan c f p s).draws = s.draws := rfl
@[simp] theorem setScan_out (c f p : BitVec 3) (s : State) : (setScan c f p s).out = s.out := rfl

/-! ### clearConditions -/

@[simp] theorem clearConditions_store (m : BitVec 6) (s : State) : (clearConditions m s).store = s.store := rfl
@[simp] theorem clearConditions_cur (m : BitVec 6) (s : State) : (clearConditions m s).cur = s.cur := rfl
@[simp] theorem clearConditions_phase (m : BitVec 6) (s : State) : (clearConditions m s).phase = s.phase := rfl
@[simp] theorem clearConditions_prev (m : BitVec 6) (s : State) : (clearConditions m s).prev = s.prev := rfl
@[simp] theorem clearConditions_initialized (m : BitVec 6) (s : State) : (clearConditions m s).initialized = s.initialized := rfl
@[simp] theorem clearConditions_run (m : BitVec 6) (s : State) : (clearConditions m s).run = s.run := rfl
@[simp] theorem clearConditions_anode (m : BitVec 6) (s : State) : (clearConditions m s).anode = s.anode := rfl
@[simp] theorem clearConditions_boost (m : BitVec 6) (s : State) : (clearConditions m s).boost = s.boost := rfl
@[simp] theorem clearConditions_cmpBuf (m : BitVec 6) (s : State) : (clearConditions m s).cmpBuf = s.cmpBuf := rfl
@[simp] theorem clearConditions_cmpAct (m : BitVec 6) (s : State) : (clearConditions m s).cmpAct = s.cmpAct := rfl
@[simp] theorem clearConditions_framePend (m : BitVec 6) (s : State) : (clearConditions m s).framePend = (!m.getLsbD 0 && s.framePend) := rfl
@[simp] theorem clearConditions_frameCnt (m : BitVec 6) (s : State) : (clearConditions m s).frameCnt = if m.getLsbD 4 then 0 else s.frameCnt := rfl
@[simp] theorem clearConditions_ovr (m : BitVec 6) (s : State) : (clearConditions m s).ovr = (!m.getLsbD 1 && s.ovr) := rfl
@[simp] theorem clearConditions_ovrCnt (m : BitVec 6) (s : State) : (clearConditions m s).ovrCnt = if m.getLsbD 5 then 0 else s.ovrCnt := rfl
@[simp] theorem clearConditions_errPixel (m : BitVec 6) (s : State) : (clearConditions m s).errPixel = (!m.getLsbD 2 && s.errPixel) := rfl
@[simp] theorem clearConditions_errCmd (m : BitVec 6) (s : State) : (clearConditions m s).errCmd = (!m.getLsbD 3 && s.errCmd) := rfl
@[simp] theorem clearConditions_ieFrame (m : BitVec 6) (s : State) : (clearConditions m s).ieFrame = s.ieFrame := rfl
@[simp] theorem clearConditions_ieOvr (m : BitVec 6) (s : State) : (clearConditions m s).ieOvr = s.ieOvr := rfl
@[simp] theorem clearConditions_ieErr (m : BitVec 6) (s : State) : (clearConditions m s).ieErr = s.ieErr := rfl
@[simp] theorem clearConditions_pending (m : BitVec 6) (s : State) : (clearConditions m s).pending = s.pending := rfl
@[simp] theorem clearConditions_hostQ (m : BitVec 6) (s : State) : (clearConditions m s).hostQ = s.hostQ := rfl
@[simp] theorem clearConditions_moves (m : BitVec 6) (s : State) : (clearConditions m s).moves = s.moves := rfl
@[simp] theorem clearConditions_draws (m : BitVec 6) (s : State) : (clearConditions m s).draws = s.draws := rfl
@[simp] theorem clearConditions_out (m : BitVec 6) (s : State) : (clearConditions m s).out = s.out := rfl

/-! ### writeIrqCtrl -/

@[simp] theorem writeIrqCtrl_store (v : Word) (s : State) : (writeIrqCtrl v s).store = s.store := rfl
@[simp] theorem writeIrqCtrl_cur (v : Word) (s : State) : (writeIrqCtrl v s).cur = s.cur := rfl
@[simp] theorem writeIrqCtrl_phase (v : Word) (s : State) : (writeIrqCtrl v s).phase = s.phase := rfl
@[simp] theorem writeIrqCtrl_prev (v : Word) (s : State) : (writeIrqCtrl v s).prev = s.prev := rfl
@[simp] theorem writeIrqCtrl_initialized (v : Word) (s : State) : (writeIrqCtrl v s).initialized = s.initialized := rfl
@[simp] theorem writeIrqCtrl_run (v : Word) (s : State) : (writeIrqCtrl v s).run = s.run := rfl
@[simp] theorem writeIrqCtrl_anode (v : Word) (s : State) : (writeIrqCtrl v s).anode = s.anode := rfl
@[simp] theorem writeIrqCtrl_boost (v : Word) (s : State) : (writeIrqCtrl v s).boost = s.boost := rfl
@[simp] theorem writeIrqCtrl_cmpBuf (v : Word) (s : State) : (writeIrqCtrl v s).cmpBuf = s.cmpBuf := rfl
@[simp] theorem writeIrqCtrl_cmpAct (v : Word) (s : State) : (writeIrqCtrl v s).cmpAct = s.cmpAct := rfl
@[simp] theorem writeIrqCtrl_framePend (v : Word) (s : State) : (writeIrqCtrl v s).framePend = s.framePend := rfl
@[simp] theorem writeIrqCtrl_frameCnt (v : Word) (s : State) : (writeIrqCtrl v s).frameCnt = s.frameCnt := rfl
@[simp] theorem writeIrqCtrl_ovr (v : Word) (s : State) : (writeIrqCtrl v s).ovr = s.ovr := rfl
@[simp] theorem writeIrqCtrl_ovrCnt (v : Word) (s : State) : (writeIrqCtrl v s).ovrCnt = s.ovrCnt := rfl
@[simp] theorem writeIrqCtrl_errPixel (v : Word) (s : State) : (writeIrqCtrl v s).errPixel = s.errPixel := rfl
@[simp] theorem writeIrqCtrl_errCmd (v : Word) (s : State) : (writeIrqCtrl v s).errCmd = s.errCmd := rfl
@[simp] theorem writeIrqCtrl_ieFrame (v : Word) (s : State) : (writeIrqCtrl v s).ieFrame = v.getLsbD 0 := rfl
@[simp] theorem writeIrqCtrl_ieOvr (v : Word) (s : State) : (writeIrqCtrl v s).ieOvr = v.getLsbD 1 := rfl
@[simp] theorem writeIrqCtrl_ieErr (v : Word) (s : State) : (writeIrqCtrl v s).ieErr = v.getLsbD 2 := rfl
@[simp] theorem writeIrqCtrl_pending (v : Word) (s : State) : (writeIrqCtrl v s).pending = s.pending := rfl
@[simp] theorem writeIrqCtrl_hostQ (v : Word) (s : State) : (writeIrqCtrl v s).hostQ = s.hostQ := rfl
@[simp] theorem writeIrqCtrl_moves (v : Word) (s : State) : (writeIrqCtrl v s).moves = s.moves := rfl
@[simp] theorem writeIrqCtrl_draws (v : Word) (s : State) : (writeIrqCtrl v s).draws = s.draws := rfl
@[simp] theorem writeIrqCtrl_out (v : Word) (s : State) : (writeIrqCtrl v s).out = s.out := rfl

/-! ### placeCommand -/

@[simp] theorem placeCommand_store (w : Word) (s : State) : (placeCommand w s).store = s.store := rfl
@[simp] theorem placeCommand_cur (w : Word) (s : State) : (placeCommand w s).cur = s.cur := rfl
@[simp] theorem placeCommand_phase (w : Word) (s : State) : (placeCommand w s).phase = s.phase := rfl
@[simp] theorem placeCommand_prev (w : Word) (s : State) : (placeCommand w s).prev = s.prev := rfl
@[simp] theorem placeCommand_initialized (w : Word) (s : State) : (placeCommand w s).initialized = s.initialized := rfl
@[simp] theorem placeCommand_run (w : Word) (s : State) : (placeCommand w s).run = s.run := rfl
@[simp] theorem placeCommand_anode (w : Word) (s : State) : (placeCommand w s).anode = s.anode := rfl
@[simp] theorem placeCommand_boost (w : Word) (s : State) : (placeCommand w s).boost = s.boost := rfl
@[simp] theorem placeCommand_cmpBuf (w : Word) (s : State) : (placeCommand w s).cmpBuf = s.cmpBuf := rfl
@[simp] theorem placeCommand_cmpAct (w : Word) (s : State) : (placeCommand w s).cmpAct = s.cmpAct := rfl
@[simp] theorem placeCommand_framePend (w : Word) (s : State) : (placeCommand w s).framePend = s.framePend := rfl
@[simp] theorem placeCommand_frameCnt (w : Word) (s : State) : (placeCommand w s).frameCnt = s.frameCnt := rfl
@[simp] theorem placeCommand_ovr (w : Word) (s : State) : (placeCommand w s).ovr = s.ovr := rfl
@[simp] theorem placeCommand_ovrCnt (w : Word) (s : State) : (placeCommand w s).ovrCnt = s.ovrCnt := rfl
@[simp] theorem placeCommand_errPixel (w : Word) (s : State) : (placeCommand w s).errPixel = s.errPixel := rfl
@[simp] theorem placeCommand_errCmd (w : Word) (s : State) : (placeCommand w s).errCmd = s.errCmd := rfl
@[simp] theorem placeCommand_ieFrame (w : Word) (s : State) : (placeCommand w s).ieFrame = s.ieFrame := rfl
@[simp] theorem placeCommand_ieOvr (w : Word) (s : State) : (placeCommand w s).ieOvr = s.ieOvr := rfl
@[simp] theorem placeCommand_ieErr (w : Word) (s : State) : (placeCommand w s).ieErr = s.ieErr := rfl
@[simp] theorem placeCommand_pending (w : Word) (s : State) : (placeCommand w s).pending = [] := rfl
@[simp] theorem placeCommand_hostQ (w : Word) (s : State) : (placeCommand w s).hostQ = cmdWrite w :: s.hostQ := rfl
@[simp] theorem placeCommand_moves (w : Word) (s : State) : (placeCommand w s).moves = Move.host :: s.moves := rfl
@[simp] theorem placeCommand_draws (w : Word) (s : State) : (placeCommand w s).draws = s.draws := rfl
@[simp] theorem placeCommand_out (w : Word) (s : State) : (placeCommand w s).out = s.out := rfl

/-! ### recordCondition -/

@[simp] theorem recordCondition_store (c : Condition) (s : State) : (recordCondition c s).store = s.store := by cases c <;> simp [recordCondition]
@[simp] theorem recordCondition_cur (c : Condition) (s : State) : (recordCondition c s).cur = s.cur := by cases c <;> simp [recordCondition]
@[simp] theorem recordCondition_phase (c : Condition) (s : State) : (recordCondition c s).phase = s.phase := by cases c <;> simp [recordCondition]
@[simp] theorem recordCondition_prev (c : Condition) (s : State) : (recordCondition c s).prev = s.prev := by cases c <;> simp [recordCondition]
@[simp] theorem recordCondition_initialized (c : Condition) (s : State) : (recordCondition c s).initialized = s.initialized := by cases c <;> simp [recordCondition]
@[simp] theorem recordCondition_run (c : Condition) (s : State) : (recordCondition c s).run = s.run := by cases c <;> simp [recordCondition]
@[simp] theorem recordCondition_anode (c : Condition) (s : State) : (recordCondition c s).anode = s.anode := by cases c <;> simp [recordCondition]
@[simp] theorem recordCondition_boost (c : Condition) (s : State) : (recordCondition c s).boost = s.boost := by cases c <;> simp [recordCondition]
@[simp] theorem recordCondition_cmpBuf (c : Condition) (s : State) : (recordCondition c s).cmpBuf = s.cmpBuf := by cases c <;> simp [recordCondition]
@[simp] theorem recordCondition_cmpAct (c : Condition) (s : State) : (recordCondition c s).cmpAct = s.cmpAct := by cases c <;> simp [recordCondition]
@[simp] theorem recordCondition_framePend (c : Condition) (s : State) : (recordCondition c s).framePend = (s.framePend || c == .frameComplete) := by cases c <;> simp [recordCondition]
@[simp] theorem recordCondition_frameCnt (c : Condition) (s : State) : (recordCondition c s).frameCnt = if c = .frameComplete then wrapInc s.frameCnt else s.frameCnt := by cases c <;> simp [recordCondition]
@[simp] theorem recordCondition_ovr (c : Condition) (s : State) : (recordCondition c s).ovr = (s.ovr || c == .overrun) := by cases c <;> simp [recordCondition]
@[simp] theorem recordCondition_ovrCnt (c : Condition) (s : State) : (recordCondition c s).ovrCnt = if c = .overrun then satInc s.ovrCnt else s.ovrCnt := by cases c <;> simp [recordCondition]
@[simp] theorem recordCondition_errPixel (c : Condition) (s : State) : (recordCondition c s).errPixel = (s.errPixel || c == .pixelRange) := by cases c <;> simp [recordCondition]
@[simp] theorem recordCondition_errCmd (c : Condition) (s : State) : (recordCondition c s).errCmd = (s.errCmd || c == .badCommand) := by cases c <;> simp [recordCondition]
@[simp] theorem recordCondition_ieFrame (c : Condition) (s : State) : (recordCondition c s).ieFrame = s.ieFrame := by cases c <;> simp [recordCondition]
@[simp] theorem recordCondition_ieOvr (c : Condition) (s : State) : (recordCondition c s).ieOvr = s.ieOvr := by cases c <;> simp [recordCondition]
@[simp] theorem recordCondition_ieErr (c : Condition) (s : State) : (recordCondition c s).ieErr = s.ieErr := by cases c <;> simp [recordCondition]
@[simp] theorem recordCondition_pending (c : Condition) (s : State) : (recordCondition c s).pending = s.pending := by cases c <;> simp [recordCondition]
@[simp] theorem recordCondition_hostQ (c : Condition) (s : State) : (recordCondition c s).hostQ = s.hostQ := by cases c <;> simp [recordCondition]
@[simp] theorem recordCondition_moves (c : Condition) (s : State) : (recordCondition c s).moves = s.moves := by cases c <;> simp [recordCondition]
@[simp] theorem recordCondition_draws (c : Condition) (s : State) : (recordCondition c s).draws = s.draws := by cases c <;> simp [recordCondition]
@[simp] theorem recordCondition_out (c : Condition) (s : State) : (recordCondition c s).out = s.out := by cases c <;> simp [recordCondition]

/-! ### applyPort -/

@[simp] theorem applyPort_store (a : PortAction) (s : State) : (applyPort a s).store = s.store := by cases a <;> rfl
@[simp] theorem applyPort_cur (a : PortAction) (s : State) : (applyPort a s).cur = s.cur := by cases a <;> rfl
@[simp] theorem applyPort_phase (a : PortAction) (s : State) : (applyPort a s).phase = s.phase := by cases a <;> rfl
@[simp] theorem applyPort_prev (a : PortAction) (s : State) : (applyPort a s).prev = s.prev := by cases a <;> rfl
@[simp] theorem applyPort_initialized (a : PortAction) (s : State) : (applyPort a s).initialized = s.initialized := by cases a <;> rfl
@[simp] theorem applyPort_cmpAct (a : PortAction) (s : State) : (applyPort a s).cmpAct = s.cmpAct := by cases a <;> rfl
@[simp] theorem applyPort_framePend (a : PortAction) (s : State) : (applyPort a s).framePend = s.framePend := by cases a <;> rfl
@[simp] theorem applyPort_frameCnt (a : PortAction) (s : State) : (applyPort a s).frameCnt = s.frameCnt := by cases a <;> rfl
@[simp] theorem applyPort_ovr (a : PortAction) (s : State) : (applyPort a s).ovr = s.ovr := by cases a <;> rfl
@[simp] theorem applyPort_ovrCnt (a : PortAction) (s : State) : (applyPort a s).ovrCnt = s.ovrCnt := by cases a <;> rfl
@[simp] theorem applyPort_errPixel (a : PortAction) (s : State) : (applyPort a s).errPixel = s.errPixel := by cases a <;> rfl
@[simp] theorem applyPort_errCmd (a : PortAction) (s : State) : (applyPort a s).errCmd = s.errCmd := by cases a <;> rfl
@[simp] theorem applyPort_ieFrame (a : PortAction) (s : State) : (applyPort a s).ieFrame = s.ieFrame := by cases a <;> rfl
@[simp] theorem applyPort_ieOvr (a : PortAction) (s : State) : (applyPort a s).ieOvr = s.ieOvr := by cases a <;> rfl
@[simp] theorem applyPort_ieErr (a : PortAction) (s : State) : (applyPort a s).ieErr = s.ieErr := by cases a <;> rfl
@[simp] theorem applyPort_pending (a : PortAction) (s : State) : (applyPort a s).pending = s.pending := by cases a <;> rfl
@[simp] theorem applyPort_hostQ (a : PortAction) (s : State) : (applyPort a s).hostQ = s.hostQ := by cases a <;> rfl
@[simp] theorem applyPort_moves (a : PortAction) (s : State) : (applyPort a s).moves = s.moves := by cases a <;> rfl
@[simp] theorem applyPort_draws (a : PortAction) (s : State) : (applyPort a s).draws = s.draws := by cases a <;> rfl
@[simp] theorem applyPort_out (a : PortAction) (s : State) : (applyPort a s).out = s.out := by cases a <;> rfl

/-! ### port -/

@[simp] theorem port_store (a : PortAction) (s : State) : (port a s).store = s.store := by cases a <;> rfl
@[simp] theorem port_cur (a : PortAction) (s : State) : (port a s).cur = s.cur := by cases a <;> rfl
@[simp] theorem port_phase (a : PortAction) (s : State) : (port a s).phase = s.phase := by cases a <;> rfl
@[simp] theorem port_prev (a : PortAction) (s : State) : (port a s).prev = s.prev := by cases a <;> rfl
@[simp] theorem port_initialized (a : PortAction) (s : State) : (port a s).initialized = s.initialized := by cases a <;> rfl
@[simp] theorem port_run (a : PortAction) (s : State) : (port a s).run = (applyPort a s).run := by cases a <;> rfl
@[simp] theorem port_anode (a : PortAction) (s : State) : (port a s).anode = (applyPort a s).anode := by cases a <;> rfl
@[simp] theorem port_boost (a : PortAction) (s : State) : (port a s).boost = (applyPort a s).boost := by cases a <;> rfl
@[simp] theorem port_cmpBuf (a : PortAction) (s : State) : (port a s).cmpBuf = (applyPort a s).cmpBuf := by cases a <;> rfl
@[simp] theorem port_cmpAct (a : PortAction) (s : State) : (port a s).cmpAct = s.cmpAct := by cases a <;> rfl
@[simp] theorem port_framePend (a : PortAction) (s : State) : (port a s).framePend = s.framePend := by cases a <;> rfl
@[simp] theorem port_frameCnt (a : PortAction) (s : State) : (port a s).frameCnt = s.frameCnt := by cases a <;> rfl
@[simp] theorem port_ovr (a : PortAction) (s : State) : (port a s).ovr = s.ovr := by cases a <;> rfl
@[simp] theorem port_ovrCnt (a : PortAction) (s : State) : (port a s).ovrCnt = s.ovrCnt := by cases a <;> rfl
@[simp] theorem port_errPixel (a : PortAction) (s : State) : (port a s).errPixel = s.errPixel := by cases a <;> rfl
@[simp] theorem port_errCmd (a : PortAction) (s : State) : (port a s).errCmd = s.errCmd := by cases a <;> rfl
@[simp] theorem port_ieFrame (a : PortAction) (s : State) : (port a s).ieFrame = s.ieFrame := by cases a <;> rfl
@[simp] theorem port_ieOvr (a : PortAction) (s : State) : (port a s).ieOvr = s.ieOvr := by cases a <;> rfl
@[simp] theorem port_ieErr (a : PortAction) (s : State) : (port a s).ieErr = s.ieErr := by cases a <;> rfl
@[simp] theorem port_pending (a : PortAction) (s : State) : (port a s).pending = s.pending := by cases a <;> rfl
@[simp] theorem port_hostQ (a : PortAction) (s : State) : (port a s).hostQ = s.hostQ := by cases a <;> rfl
@[simp] theorem port_moves (a : PortAction) (s : State) : (port a s).moves = s.moves := by cases a <;> rfl
@[simp] theorem port_draws (a : PortAction) (s : State) : (port a s).draws = s.draws := by cases a <;> rfl
@[simp] theorem port_out (a : PortAction) (s : State) : (port a s).out = s.out ++ [.port a] := by cases a <;> rfl

/-! ### takeMove -/

@[simp] theorem takeMove_store (s : State) : (takeMove s).store = s.store := by cases h : s.moves <;> simp [takeMove, h]
@[simp] theorem takeMove_cur (s : State) : (takeMove s).cur = s.cur := by cases h : s.moves <;> simp [takeMove, h]
@[simp] theorem takeMove_phase (s : State) : (takeMove s).phase = s.phase := by cases h : s.moves <;> simp [takeMove, h]
@[simp] theorem takeMove_prev (s : State) : (takeMove s).prev = s.prev := by cases h : s.moves <;> simp [takeMove, h]
@[simp] theorem takeMove_initialized (s : State) : (takeMove s).initialized = s.initialized := by cases h : s.moves <;> simp [takeMove, h]
@[simp] theorem takeMove_run (s : State) : (takeMove s).run = s.run := by cases h : s.moves <;> simp [takeMove, h]
@[simp] theorem takeMove_anode (s : State) : (takeMove s).anode = s.anode := by cases h : s.moves <;> simp [takeMove, h]
@[simp] theorem takeMove_boost (s : State) : (takeMove s).boost = s.boost := by cases h : s.moves <;> simp [takeMove, h]
@[simp] theorem takeMove_cmpBuf (s : State) : (takeMove s).cmpBuf = s.cmpBuf := by cases h : s.moves <;> simp [takeMove, h]
@[simp] theorem takeMove_cmpAct (s : State) : (takeMove s).cmpAct = s.cmpAct := by cases h : s.moves <;> simp [takeMove, h]
@[simp] theorem takeMove_framePend (s : State) : (takeMove s).framePend = s.framePend := by cases h : s.moves <;> simp [takeMove, h]
@[simp] theorem takeMove_frameCnt (s : State) : (takeMove s).frameCnt = s.frameCnt := by cases h : s.moves <;> simp [takeMove, h]
@[simp] theorem takeMove_ovr (s : State) : (takeMove s).ovr = s.ovr := by cases h : s.moves <;> simp [takeMove, h]
@[simp] theorem takeMove_ovrCnt (s : State) : (takeMove s).ovrCnt = s.ovrCnt := by cases h : s.moves <;> simp [takeMove, h]
@[simp] theorem takeMove_errPixel (s : State) : (takeMove s).errPixel = s.errPixel := by cases h : s.moves <;> simp [takeMove, h]
@[simp] theorem takeMove_errCmd (s : State) : (takeMove s).errCmd = s.errCmd := by cases h : s.moves <;> simp [takeMove, h]
@[simp] theorem takeMove_ieFrame (s : State) : (takeMove s).ieFrame = s.ieFrame := by cases h : s.moves <;> simp [takeMove, h]
@[simp] theorem takeMove_ieOvr (s : State) : (takeMove s).ieOvr = s.ieOvr := by cases h : s.moves <;> simp [takeMove, h]
@[simp] theorem takeMove_ieErr (s : State) : (takeMove s).ieErr = s.ieErr := by cases h : s.moves <;> simp [takeMove, h]
@[simp] theorem takeMove_pending (s : State) : (takeMove s).pending = s.pending := by cases h : s.moves <;> simp [takeMove, h]
@[simp] theorem takeMove_hostQ (s : State) : (takeMove s).hostQ = s.hostQ := by cases h : s.moves <;> simp [takeMove, h]
@[simp] theorem takeMove_moves (s : State) : (takeMove s).moves = s.moves.tail := by cases h : s.moves <;> simp [takeMove, h]
@[simp] theorem takeMove_out (s : State) : (takeMove s).out = [] := by cases h : s.moves <;> simp [takeMove, h]

end Sys2Proof.Machine
end

