-- ==== Sys2Proof/Laws/Ops.lean ====
section
/-! SUPPORT. One lemma per shared operation, saying all it can do: cells of the store, port actions, the ENGINE. -/

namespace Sys2Proof.Machine

/-! ### Triples and cells -/

theorem Triple.get_put (t : Triple) (c c' : Channel) (v : Byte) :
    (t.put c v).get c' = if c' = c then v else t.get c' := by
  cases c <;> cases c' <;> simp

/-- Read after a micro-write: the cell written holds the value, every other cell what it held. -/
theorem cell_writeCell (m : MicroWrite) (s : State) (p : Pixel) (c : Channel) :
    cell (writeCell m s) p c = if p = m.pix ∧ c = m.ch then m.val else cell s p c := by
  by_cases hp : p = m.pix
  · subst hp; simp [cell, Triple.get_put]
  · have hp' : m.pix.val ≠ p.val := fun h => hp (Fin.ext h.symm)
    simp [cell, hp, hp']

/-- A micro-write of another cell leaves this one alone. -/
theorem cell_writeCell_of_ne (m : MicroWrite) (s : State) (p : Pixel) (c : Channel) (h : (m.pix, m.ch) ≠ (p, c)) :
    cell (writeCell m s) p c = cell s p c := by
  rw [cell_writeCell, if_neg]
  rintro ⟨rfl, rfl⟩
  exact h rfl

@[simp] theorem writeCells_nil (s : State) : writeCells [] s = s := rfl
@[simp] theorem writeCells_cons (m : MicroWrite) (ms : List MicroWrite) (s : State) :
    writeCells (m :: ms) s = writeCells ms (writeCell m s) := rfl

/-- Micro-writes change the store and nothing else. -/
theorem writeCells_only_store (ms : List MicroWrite) (s : State) :
    writeCells ms s = { s with store := (writeCells ms s).store } := by
  induction ms generalizing s with
  | nil => rfl
  | cons m ms ih => rw [writeCells_cons, ih]; rfl

/-! ### Port actions -/

@[simp] theorem portAll_nil (s : State) : portAll [] s = s := rfl
@[simp] theorem portAll_cons (a : PortAction) (as : List PortAction) (s : State) :
    portAll (a :: as) s = portAll as (port a s) := rfl
theorem portAll_append (as bs : List PortAction) (s : State) :
    portAll (as ++ bs) s = portAll bs (portAll as s) := by
  simp [portAll, List.foldl_append]

/-- Port actions change lines, compare buffers, the timer-run bit and the trace, and nothing else. -/
theorem portAll_only_lines (as : List PortAction) (s : State) :
    portAll as s = { s with
      run := (portAll as s).run, anode := (portAll as s).anode, boost := (portAll as s).boost,
      cmpBuf := (portAll as s).cmpBuf, out := s.out ++ as.map .port } := by
  induction as generalizing s with
  | nil => simp
  | cons a as ih =>
    rw [portAll_cons, ih (port a s)]
    simp

@[simp] theorem portAll_store (as : List PortAction) (s : State) : (portAll as s).store = s.store := by
  rw [portAll_only_lines]
@[simp] theorem portAll_cur (as : List PortAction) (s : State) : (portAll as s).cur = s.cur := by
  rw [portAll_only_lines]
@[simp] theorem portAll_phase (as : List PortAction) (s : State) : (portAll as s).phase = s.phase := by
  rw [portAll_only_lines]
@[simp] theorem portAll_prev (as : List PortAction) (s : State) : (portAll as s).prev = s.prev := by
  rw [portAll_only_lines]
@[simp] theorem portAll_cmpAct (as : List PortAction) (s : State) : (portAll as s).cmpAct = s.cmpAct := by
  rw [portAll_only_lines]
@[simp] theorem portAll_pending (as : List PortAction) (s : State) : (portAll as s).pending = s.pending := by
  rw [portAll_only_lines]
@[simp] theorem portAll_out (as : List PortAction) (s : State) : (portAll as s).out = s.out ++ as.map .port := by
  rw [portAll_only_lines]

/-- Six lines set inactive one by one are all inactive. -/
theorem anodes_all_off : ∀ v : BitVec 6,
    putAnode (putAnode (putAnode (putAnode (putAnode (putAnode v 0 false) 1 false) 2 false) 3 false) 4 false) 5 false
      = 0 := by decide

/-- `AllAnodesOff`: every anode line inactive (00_scope R15). -/
theorem portAll_allAnodesOff (s : State) :
    portAll allAnodesOff s = { s with anode := 0, out := s.out ++ allAnodesOff.map .port } := by
  have h := anodes_all_off s.anode
  simp [allAnodesOff, pixels, port, emit, applyPort, h]

/-- Three compare writes set the three buffers. -/
theorem portAll_compareAll (r g b : Byte) (s : State) :
    portAll (compareAll r g b) s =
      { s with cmpBuf := ⟨r, g, b⟩, out := s.out ++ (compareAll r g b).map .port } := by
  simp [compareAll, port, emit, applyPort]

/-! ### The ENGINE -/

@[simp] theorem engineStep_of_empty (k : Nat) (s : State) (h : s.pending = []) : engineStep k s = s := by
  simp [engineStep, h]

/-- An ENGINE step with work to do performs exactly one pending micro-write (41 R153). -/
theorem engineStep_next (k : Nat) (s : State) (h : s.pending ≠ []) :
    ∃ j, ∃ hj : j < s.pending.length, j = k % s.pending.length ∧
      engineStep k s = { writeCell (s.pending[j]) s with pending := s.pending.eraseIdx j } := by
  have hl : 0 < s.pending.length := List.length_pos_iff.mpr h
  have hj : k % s.pending.length < s.pending.length := Nat.mod_lt _ hl
  refine ⟨_, hj, rfl, ?_⟩
  simp [engineStep, List.getElem?_eq_getElem hj]

end Sys2Proof.Machine
end

