-- ==== Sys2Proof/Laws/Scan.lean ====
section
/-! SUPPORT. When a tick and a boundary run, and what they do: one inversion lemma for each. -/

namespace Sys2Proof.Machine

@[simp] theorem pixelOfState?_eq_some (v : BitVec 3) (p : Pixel) :
    pixelOfState? v = some p ↔ v.toNat = p.val := by
  unfold pixelOfState?
  split
  · simp [Fin.ext_iff]
  · simp; omega

theorem pixelOfState?_isSome (v : BitVec 3) : (pixelOfState? v).isSome = decide (v.toNat < 6) := by
  unfold pixelOfState?
  split <;> simp_all

/-- The pixel a tick works on is `S.cur`, where both pixel fields are legal. -/
theorem scanPixel?_eq_some (s : State) (i : Pixel) :
    scanPixel? s = some i ↔ s.cur.toNat = i.val ∧ s.prev.toNat < 6 := by
  unfold scanPixel?
  rcases hc : pixelOfState? s.cur with _ | c
  · have := pixelOfState?_isSome s.cur
    simp [hc] at this
    simp; omega
  · rcases hp : pixelOfState? s.prev with _ | p
    · have := pixelOfState?_isSome s.prev
      simp [hp] at this
      simp; omega
    · rw [pixelOfState?_eq_some] at hc hp
      simp [Fin.ext_iff]; omega

/-- The boost decision: the sink goes active where the pixel's Blue is on, else nothing happens (42 R180, R188). -/
theorem portAll_boostIfBlue (i : Pixel) (d : Store) (s : State) :
    portAll (boostIfBlue i d) s = { s with
      boost := if (d[i]).b = 255 then s.boost else true, out := s.out ++ (boostIfBlue i d).map .port } := by
  unfold boostIfBlue
  by_cases h : (d[i]).b = 255
  · rw [if_pos h, if_pos h]; simp
  · rw [if_neg h, if_neg h]; simp [port, applyPort, emit]

theorem phaseCount_pos (bd : Build) : 1 ≤ phaseCount bd := by unfold phaseCount; split <;> decide

/-- Every phase below N has its actions, and no other. -/
theorem phaseActions_isSome (bd : Build) (f : BitVec 3) (i : Pixel) (d : Store) :
    (phaseActions bd f i d).isSome = decide (f.toNat < phaseCount bd) := by
  have h8 : ∀ g : BitVec 3, g = 0 ∨ g = 1 ∨ g = 2 ∨ g = 3 ∨ g = 4 ∨ g = 5 ∨ g = 6 ∨ g = 7 := by decide
  rcases bd with ⟨pol, _, _, _, _⟩
  rcases h8 f with h | h | h | h | h | h | h | h <;> subst h <;> cases pol <;> rfl

/-- All a tick can do when it completes (42 R174). -/
theorem tick_next (bd : Build) (s t : State) :
    tick bd s = .next t ↔
      ∃ i as, scanPixel? s = some i ∧ phaseActions bd s.phase i s.store = some as ∧
        t = advance bd i (portAll as s) := by
  unfold tick
  rcases scanPixel? s with _ | i
  · simp
  · rcases h : phaseActions bd s.phase i s.store with _ | as
    · simp [h]
    · simp [h, eq_comm]

/-- A tick from a legal scan state completes (42 R175). -/
theorem tick_completes (bd : Build) (s : State) (hc : s.cur.toNat < 6) (hf : s.phase.toNat < phaseCount bd)
    (hp : s.prev.toNat < 6) :
    ∃ i as, s.cur.toNat = i.val ∧ phaseActions bd s.phase i s.store = some as ∧
      tick bd s = .next (advance bd i (portAll as s)) := by
  have hi : scanPixel? s = some ⟨s.cur.toNat, hc⟩ := by simp [scanPixel?_eq_some, hp]
  have ha := phaseActions_isSome bd s.phase ⟨s.cur.toNat, hc⟩ s.store
  rw [decide_eq_true hf, Option.isSome_iff_exists] at ha
  obtain ⟨as, ha⟩ := ha
  exact ⟨_, as, rfl, ha, (tick_next _ _ _).mpr ⟨_, as, hi, ha, rfl⟩⟩

@[simp] theorem overrunRecord_false (s : State) : overrunRecord false s = s := rfl
@[simp] theorem overrunRecord_true (s : State) : overrunRecord true s = recordCondition .overrun s := rfl

@[simp] theorem boundaries_nil (bd : Build) (s : State) : boundaries bd [] s = .next s := rfl

theorem boundaries_cons_of_next (bd : Build) (l : Bool) (ls : List Bool) (s t : State)
    (h : boundary bd l s = .next t) : boundaries bd (l :: ls) s = boundaries bd ls t := by
  simp [boundaries, h]

end Sys2Proof.Machine
end

