-- ==== Sys2Proof/Machine/Outputs.lean ====
section
/-! DEFINITION. The derived outputs of the block (10_state R45), the Port's reading of a compare value (60_exceptions
R271), and the identifier (00_scope R3). The anode, boost and timer-run lines are the state fields themselves. -/

namespace Sys2Proof.Machine

/-- `OUT[c] = S.initialized ? S.cmp_act[c] : 255` (R45). -/
def outLevel (s : State) (c : Channel) : Byte := if s.initialized then s.cmpAct.get c else 255

/-- A channel is constant inactive for the whole cycle where its output value is 255 (42 R197, R271). -/
def constantInactive (s : State) (c : Channel) : Bool := outLevel s c == 255

/-- The on-time gained over DriveLevel 255 by the `n` levels below it. -/
def onTimeFrom (step : Nat → Nat) : Nat → Nat
  | 0 => 0
  | n + 1 => onTimeFrom step n + step n

/-- DUTY (R271, D41): non-increasing in the DriveLevel, 0 at 255, and otherwise the Port's own (log 13). -/
def duty (v : Byte) : Nat := onTimeFrom Config.dutyStep (255 - v.toNat)

/-- The block's identifier string (00_scope R3). -/
def identifier (bd : Build) : String :=
  match bd.policy with
  | .fivePhase => "M38-LEDSCAN-1-5P"
  | .threeStage => "M38-LEDSCAN-1-3S"

end Sys2Proof.Machine
end

