-- ==== Sys2Proof/Machine/Script.lean ====
section
/-! DEFINITION. A textual command stream as moves (30_encoding R108, R109). A colour command is followed by the ENGINE's
micro-writes in their listed order, one admitted schedule (41_color_store R153); they do nothing on a build that writes
a colour in one step. -/

namespace Sys2Proof.Machine

/-- A host access, presented and performed. -/
def accessMoves (a : HostAccess) : List Move := [.issue a, .host]

/-- How many micro-writes a command leaves pending (41_color_store R151, R157). -/
def microWriteCount : Instr → Nat
  | .setColor pix _ _ _ => if (pixelOfField? pix).isSome then 3 else 0
  | .setAll _ _ _ => 18
  | .nop => 0
  | .init => 0
  | .enable => 0
  | .disable => 0
  | .clrStatus _ => 0
  | .reserved7 => 0
  | .reserved8F _ => 0

/-- The moves of one line (R108). -/
def lineMoves : Line → List Move
  | .cmd i => accessMoves (cmdWrite (encode i)) ++ List.replicate (microWriteCount i) (.engine 0)
  | .rd off => accessMoves ⟨.read, off, 4⟩
  | .wr off v =>
    accessMoves ⟨.write v, off, 4⟩ ++
      List.replicate (if off = 0 then microWriteCount (decodeWord v) else 0) (.engine 0)
  | .tick late => [.port late]
  | .ticks k => List.replicate k (.port false)

/-- The expansions of the pseudo-operations (R109). -/
def expandPseudo : Pseudo → Line
  | .off p => .cmd (.setColor p 0 0 0)
  | .allOff => .cmd (.setAll 0 0 0)
  | .clrAll => .cmd (.clrStatus 63)
  | .irqEn m => .wr 0x0C (m.setWidth 32)

/-- The state before a command stream runs: its moves come before those State already holds. -/
def loadScript (ls : List Line) (s : State) : State := { s with moves := ls.flatMap lineMoves ++ s.moves }

end Sys2Proof.Machine
end

