-- ==== Sys2Proof/Safety.lean ====
section
/-! DEFINITION. What a safe state and a safe run are, in the terms the claims use: the laws of 10_state R56 to R58 as
predicates of a state, which command or boundary a step runs, and runs of the ENGINE. -/

namespace Sys2Proof.Machine

/-- At most one anode line is active (42 R194). -/
abbrev OneAnode (v : BitVec 6) : Prop :=
  ∀ p q : Pixel, v.getLsbD p.val = true → v.getLsbD q.val = true → p = q

/-- At most one anode is active, and none while the boost sink is (10_state R57). -/
abbrev LinesSafe (s : State) : Prop :=
  OneAnode s.anode ∧ (s.boost = true → s.anode = 0)

/-- The scan position is a legal one (10_state R56). -/
abbrev ScanLegal (bd : Build) (s : State) : Prop :=
  s.cur.toNat < 6 ∧ s.phase.toNat < phaseCount bd ∧ s.prev.toNat < 6 ∧
  s.prev.toNat = (s.cur.toNat + 5) % 6

/-- While the block is disabled every line is inactive (43 R228, 60_exceptions R276). -/
abbrev DarkWhenDisabled (s : State) : Prop :=
  s.run = false → s.anode = 0 ∧ s.boost = false

/-- The phase after the tick that activates the current pixel's anode (42 R182, R189). -/
def displayFrom (bd : Build) : Nat :=
  match bd.policy with
  | .fivePhase => 3
  | .threeStage => 2

/-- While the block is enabled the lines stand as the phases already done of the current pixel leave them: the boost sink
is active only after phase 0, and the current pixel's anode is active exactly from the tick that activates it on
(42 R185, R191). Before phase 0 the previous pixel's anode may still be active. -/
abbrev LinesFollowScan (bd : Build) (s : State) : Prop :=
  s.run = true →
    (s.boost = true → s.phase = 1) ∧
    (s.phase = 0 → s.anode = 0 ∨ s.anode = 1#6 <<< s.prev.toNat) ∧
    (0 < s.phase.toNat → s.phase.toNat < displayFrom bd → s.anode = 0) ∧
    (displayFrom bd ≤ s.phase.toNat → s.anode = 1#6 <<< s.cur.toNat)

/-- `v` is an output of the drive ROM for channel `c`. -/
abbrev RomValue (bd : Build) (c : Channel) (v : Byte) : Prop := ∃ l : Byte, rom bd c l = v

/-- Every DriveLevel in flight is an output of the ROM for its channel (10_state R33, R58): the pending
micro-writes, the compare values, and, once an ENABLE has run, the store. -/
def ValuesFromRom (bd : Build) (s : State) : Prop :=
  (∀ m ∈ s.pending, RomValue bd m.ch m.val) ∧
  (∀ c, RomValue bd c (s.cmpBuf.get c) ∧ RomValue bd c (s.cmpAct.get c)) ∧
  (s.run = true → ∀ p c, RomValue bd c (cell s p c))

/-- Two pending micro-writes never name one cell, and a build that writes a colour in one step has none
(41_color_store R151, R153, R157). -/
abbrev PendingLegal (bd : Build) (s : State) : Prop :=
  (s.pending.map (fun m => (m.pix, m.ch))).Nodup ∧ (bd.atomic = true → s.pending = [])

/-- The invariant of the block under a build. -/
structure Inv (bd : Build) (s : State) : Prop where
  scan    : ScanLegal bd s
  lines   : LinesSafe s
  display : LinesFollowScan bd s
  dark    : DarkWhenDisabled s
  values  : ValuesFromRom bd s
  pending : PendingLegal bd s

/-- The command word a step runs, if its move is a HOST write of CMD that does not hold. -/
def commandOfStep (s : State) : Option Instr :=
  match nextMove s, s.hostQ with
  | .host, ⟨.write w, off, size⟩ :: _ =>
    if size = 4 ∧ off = 0 ∧ s.pending = [] then some (decodeWord w) else none
  | _, _ => none

/-- The `late` input of the boundary a step runs, if its move is an enabled PORT's. -/
def boundaryOfStep (s : State) : Option Bool :=
  match nextMove s with
  | .port late => if s.run then some late else none
  | _ => none

/-- ENGINE steps one after another, each with its choice (41_color_store R153). -/
def engineRun (ks : List Nat) (s : State) : State := ks.foldl (fun t k => engineStep k t) s

/-- Two states that differ in the store alone. -/
abbrev SameButStore (s t : State) : Prop := { s with store := t.store } = t

/-- The store of a state is not observable: the states are the same, or they differ in the store alone while
the block is disabled (70 R292). -/
def StoreHidden (s t : State) : Prop := s = t ∨ (SameButStore s t ∧ s.run = false)

/-- The six actions of `AllAnodesOff`, written out (00_scope R15). -/
def anodesOffTrace : List Output :=
  [.port (.anodeSet 0 false), .port (.anodeSet 1 false), .port (.anodeSet 2 false),
   .port (.anodeSet 3 false), .port (.anodeSet 4 false), .port (.anodeSet 5 false)]

/-- Three compare writes, written out. -/
def compareTrace (r g b : Byte) : List Output :=
  [.port (.compare .red r), .port (.compare .green g), .port (.compare .blue b)]

end Sys2Proof.Machine
end

