-- ==== Sys2Proof/Laws/Step.lean ====
section
/-! SUPPORT. The inversion of a step: if it answers a next state, one of these moves was made. Later proofs cite it and
do not unfold `step`. -/

namespace Sys2Proof.Machine

/-- Every command answers a next state. -/
theorem exec_next (i : Instr) (s : State) : ∃ t, exec i s = .next t := by
  cases i <;> exact ⟨_, rfl⟩

theorem step_eq (s : State) : step s = runMove (nextMove s) (takeMove s) := rfl

/-- The command a step runs, from the move and the access presented. -/
theorem commandOfStep_eq_some (s : State) (i : Instr) :
    commandOfStep s = some i ↔
      ∃ w q, nextMove s = .host ∧ s.hostQ = cmdWrite w :: q ∧ s.pending = [] ∧ decodeWord w = i := by
  unfold commandOfStep
  constructor
  · intro h
    split at h
    · rename_i w off size q hm hq
      split at h
      · rename_i hc
        obtain ⟨h4, h0, hp⟩ := hc
        subst h4 h0
        exact ⟨w, q, hm, hq, hp, Option.some.inj h⟩
      · cases h
    · cases h
  · rintro ⟨w, q, hm, hq, hp, rfl⟩
    simp [hm, hq, hp, cmdWrite]

/-- A step runs a command only if its move is the HOST's. -/
theorem commandOfStep_of_not_host (s : State) (h : nextMove s ≠ .host) : commandOfStep s = none := by
  unfold commandOfStep
  split
  · contradiction
  · rfl

/-- The boundary a step delivers, from the move and the run bit. -/
theorem boundaryOfStep_eq_some (s : State) (late : Bool) :
    boundaryOfStep s = some late ↔ nextMove s = .port late ∧ s.run = true := by
  unfold boundaryOfStep
  split
  · split <;> simp_all
  · rename_i h
    constructor
    · intro h; cases h
    · rintro ⟨hm, -⟩; exact absurd hm (h late)

/-- A step delivers a boundary only if its move is PORT's. -/
theorem boundaryOfStep_of_host (s : State) (h : nextMove s = .host) : boundaryOfStep s = none := by
  simp [boundaryOfStep, h]

/-- All a HOST step can do when it answers a next state: a command, the interrupt enables, a read, or nothing
but taking the access (an ignored write) or not even that (no access, or a hold). Only the first runs a command. -/
theorem hostStep_next {u t : State} (h : hostStep u = .next t) :
    (∃ w q, u.hostQ = cmdWrite w :: q ∧ u.pending = [] ∧ exec (decodeWord w) { u with hostQ := q } = .next t) ∨
    ((∀ w q, u.hostQ = cmdWrite w :: q → u.pending ≠ []) ∧
      ((∃ v q, u.hostQ = ⟨.write v, 0x0C, 4⟩ :: q ∧ u.pending = [] ∧ t = writeIrqCtrl v { u with hostQ := q }) ∨
       (∃ off q, u.hostQ = ⟨.read, off, 4⟩ :: q ∧ u.pending = [] ∧
          t = emit (.readData (regValue Config.build off { u with hostQ := q })) { u with hostQ := q }) ∨
       (∃ q, t = { u with hostQ := q }))) := by
  unfold hostStep at h
  split at h
  · rename_i hq
    exact .inr ⟨fun w q e => by simp [hq] at e, .inr (.inr ⟨u.hostQ, (Host.Outcome.next.inj h).symm⟩)⟩
  · rename_i a q hq
    split at h
    · rename_i hadm
      obtain ⟨kind, off, size⟩ := a
      obtain ⟨rfl, -⟩ : size = 4 ∧ off.toNat % 4 = 0 := by simpa [HostAccess.admitted] using hadm
      split at h
      · rename_i hp
        have hp : u.pending = [] := by simpa using hp
        rcases kind with _ | w
        · exact .inr ⟨fun w q' e => by simp [hq, cmdWrite] at e,
            .inr (.inl ⟨off, q, hq, hp, (Host.Outcome.next.inj h).symm⟩)⟩
        · simp only [hostAccess, hostWrite] at h
          split at h
          · exact .inl ⟨w, q, hq, hp, h⟩
          · exact .inr ⟨fun w q' e => by simp [hq, cmdWrite] at e,
              .inl ⟨w, q, hq, hp, (Host.Outcome.next.inj h).symm⟩⟩
          · rename_i h0 _
            refine .inr ⟨fun w' q' e => ?_, .inr (.inr ⟨q, (Host.Outcome.next.inj h).symm⟩)⟩
            rw [hq] at e
            exact absurd (congrArg HostAccess.off (List.cons.inj e).1) h0
      · rename_i hp
        exact .inr ⟨fun _ _ _ e => hp (by simp [e]), .inr (.inr ⟨u.hostQ, (Host.Outcome.next.inj h).symm⟩)⟩
    · cases h

/-- All a step can do when it answers a next state (20_memory R78), with the command and the boundary it runs. -/
theorem step_cases {s t : State} (h : step s = .next t) :
    (∃ i q, commandOfStep s = some i ∧ boundaryOfStep s = none ∧ exec i { takeMove s with hostQ := q } = .next t) ∨
    (commandOfStep s = none ∧ boundaryOfStep s = none ∧
      ((∃ v q, nextMove s = .host ∧ s.pending = [] ∧ t = writeIrqCtrl v { takeMove s with hostQ := q }) ∨
       (∃ v q, nextMove s = .host ∧ s.pending = [] ∧ t = emit (.readData v) { takeMove s with hostQ := q }) ∨
       (∃ q, t = { takeMove s with hostQ := q }) ∨
       (∃ k, nextMove s = .engine k ∧ t = engineStep k (takeMove s)))) ∨
    (∃ late, commandOfStep s = none ∧ boundaryOfStep s = some late ∧
      boundary Config.build late (takeMove s) = .next t) := by
  rw [step_eq] at h
  rcases hm : nextMove s with _ | k | late | a <;> rw [hm] at h
  · rcases hostStep_next h with ⟨w, q, hq, hp, he⟩ | ⟨hnone, hrest⟩
    · exact .inl ⟨_, q, (commandOfStep_eq_some s _).mpr ⟨w, q, hm, by simpa using hq, by simpa using hp, rfl⟩,
        boundaryOfStep_of_host s hm, he⟩
    · have hc : commandOfStep s = none := by
        rw [Option.eq_none_iff_forall_ne_some]
        intro i hi
        obtain ⟨w, q, -, hq, hp, -⟩ := (commandOfStep_eq_some s i).mp hi
        exact hnone w q (by simpa using hq) (by simpa using hp)
      refine .inr (.inl ⟨hc, boundaryOfStep_of_host s hm, ?_⟩)
      rcases hrest with ⟨v, q, -, hp, ht⟩ | ⟨off, q, -, hp, ht⟩ | ht
      · exact .inl ⟨v, q, rfl, by simpa using hp, ht⟩
      · exact .inr (.inl ⟨_, q, rfl, by simpa using hp, ht⟩)
      · exact .inr (.inr (.inl ht))
  · refine .inr (.inl ⟨commandOfStep_of_not_host s (by simp [hm]), by simp [boundaryOfStep, hm], ?_⟩)
    exact .inr (.inr (.inr ⟨k, rfl, (Host.Outcome.next.inj h).symm⟩))
  · have hc := commandOfStep_of_not_host s (by simp [hm])
    simp only [runMove, portStep, takeMove_run] at h
    split at h
    · rename_i hr
      exact .inr (.inr ⟨late, hc, (boundaryOfStep_eq_some s late).mpr ⟨hm, hr⟩, h⟩)
    · rename_i hr
      exact .inr (.inl ⟨hc, by simp [boundaryOfStep, hm, hr],
        .inr (.inr (.inl ⟨(takeMove s).hostQ, (Host.Outcome.next.inj h).symm⟩))⟩)
  · exact .inr (.inl ⟨commandOfStep_of_not_host s (by simp [hm]), by simp [boundaryOfStep, hm],
      .inr (.inr (.inl ⟨_, (Host.Outcome.next.inj h).symm⟩))⟩)

end Sys2Proof.Machine
end

