-- ==== Sys2Proof/Certificates/Slice0/Obligations.lean ====
section
/-! DEFINITION. The statements about the block, from the numbered rules of spec/. `bd` is any build; the step itself is
that of `Config.build`, which nothing is known of. Free values and the log entries a statement rests on are named in
its docstring. -/

open Sys2Proof Sys2Proof.Machine

/-! ## Encoding -/

/-- Decoding the word of a well-formed command, or its bytes, gives the command back (30_encoding R100 to R103). -/
def Obligations.DecodeOfEncodeIsTheCommand : Prop :=
  ∀ i : Instr, i.wf = true →
    decodeWord (encode i) = i ∧
    ∀ rest : List Byte, decodeBytes (encodeBytes i ++ rest) = .ok (i, rest)

/-- Every word decodes to a well-formed command whose word agrees with it on all bits but the ignored ones
(30_encoding R101, R104): no bit that counts is lost. The zeros for ignored bits are R108's. -/
def Obligations.EncodeOfDecodeKeepsEveryUsedBit : Prop :=
  ∀ w : Word, (decodeWord w).wf = true ∧ encode (decodeWord w) = w &&& usedBits (decodeWord w)

/-- R101: the arm of every opcode, with its operand fields; and a write of a word to CMD runs that arm. -/
def Obligations.DecodeSelectsTheArmOfTheOpcode : Prop :=
  (∀ (s : State) (w : Word) (q : List HostAccess), nextMove s = .host → s.hostQ = ⟨.write w, 0, 4⟩ :: q →
    s.pending = [] → step s = exec (decodeWord w) { takeMove s with hostQ := q }) ∧
  ∀ w : Word,
    (w.extractLsb' 28 4 = 0x0#4 → decodeWord w = .nop) ∧
    (w.extractLsb' 28 4 = 0x1#4 → decodeWord w = .init) ∧
    (w.extractLsb' 28 4 = 0x2#4 → decodeWord w = .enable) ∧
    (w.extractLsb' 28 4 = 0x3#4 → decodeWord w = .disable) ∧
    (w.extractLsb' 28 4 = 0x4#4 → decodeWord w =
      .setColor (w.extractLsb' 24 4) (w.extractLsb' 16 8) (w.extractLsb' 8 8) (w.extractLsb' 0 8)) ∧
    (w.extractLsb' 28 4 = 0x5#4 → decodeWord w =
      .setAll (w.extractLsb' 16 8) (w.extractLsb' 8 8) (w.extractLsb' 0 8)) ∧
    (w.extractLsb' 28 4 = 0x6#4 → decodeWord w = .clrStatus (w.extractLsb' 0 6)) ∧
    (w.extractLsb' 28 4 = 0x7#4 → decodeWord w = .reserved7) ∧
    (8 ≤ (w.extractLsb' 28 4).toNat → decodeWord w = .reserved8F (w.extractLsb' 28 4))

/-- Words of 95_test_vectors V20 to V35 decode as it says, and the words of R108 and R110 are the commands' encodings. -/
def Obligations.WordsOfTheSpecDecodeAndEncode : Prop :=
  decodeWord 0x0ABCDEF1 = .nop ∧ decodeWord 0x1FFFFFFF = .init ∧ decodeWord 0x20000000 = .enable ∧
  decodeWord 0x30000000 = .disable ∧ decodeWord 0x45010203 = .setColor 5 1 2 3 ∧
  decodeWord 0x4F000000 = .setColor 15 0 0 0 ∧ decodeWord 0x5A000000 = .setAll 0 0 0 ∧
  decodeWord 0x600000FF = .clrStatus 63 ∧ decodeWord 0x70000000 = .reserved7 ∧
  decodeWord 0x8FFFFFFF = .reserved8F 8 ∧
  encode (.setColor 2 255 0 128) = 0x42FF0080 ∧
  encode .nop = 0x00000000 ∧ encode .init = 0x10000000 ∧ encode .enable = 0x20000000 ∧
  encode .disable = 0x30000000 ∧ encode (.setAll 255 255 255) = 0x50FFFFFF ∧
  encode (.clrStatus 63) = 0x6000003F

/-! ## The drive ROM -/

/-- The table of R131 is the formula of R131: `GAMMA[l] = floor(255 (l/255)^2.8 + 1/2)`, in integers, and it does not
decrease. (With g = GAMMA[l], g - 1/2 <= x < g + 1/2 for x^5 = l^14 / 255^9.) -/
def Obligations.GammaTableIsTheRoundedCurve : Prop :=
  gammaTable.length = 256 ∧
  (∀ l : Byte, 32 * l.toNat ^ 14 < (2 * gamma l + 1) ^ 5 * 255 ^ 9 ∧
    (gamma l = 0 ∨ (2 * gamma l - 1) ^ 5 * 255 ^ 9 ≤ 32 * l.toNat ^ 14)) ∧
  (∀ l : Byte, l ≠ 255 → gamma l ≤ gamma (l + 1))

/-- R133: the contents of the ROM, the channel code 3 among them, its corner cases and its worked example. -/
def Obligations.RomHoldsInvertedScaledGamma : Prop :=
  (∀ (bd : Build) (l : Byte),
    (romCell bd (0#2 ++ l)).toNat = 255 - gamma l / (bd.divRLess.val + 1) ∧
    (romCell bd (1#2 ++ l)).toNat = 255 - gamma l / (bd.divGLess.val + 1) ∧
    (romCell bd (2#2 ++ l)).toNat = 255 - gamma l / (bd.divBLess.val + 1) ∧
    romCell bd (3#2 ++ l) = 255) ∧
  (∀ (bd : Build) (c : Channel), rom bd c 0 = 255) ∧
  (∀ (bd : Build) (c : Channel) (l : Byte), divisor bd c = 1 → (rom bd c l).toNat = 255 - gamma l) ∧
  (∀ bd : Build, divisor bd .blue = 1 → rom bd .blue 128 = 218)

/-- The laws the spec infers from R131 and R133 (its R134): the off sentinel, monotony, the bound, and the dark inputs. -/
def Obligations.RomIsMonotoneAndBounded : Prop :=
  ∀ (bd : Build) (c : Channel),
    rom bd c 0 = 255 ∧
    (∀ l1 l2 : Byte, l1.toNat < l2.toNat → (rom bd c l2).toNat ≤ (rom bd c l1).toNat) ∧
    (∀ l : Byte, 255 - 255 / divisor bd c ≤ (rom bd c l).toNat ∧ (rom bd c l).toNat ≤ 255) ∧
    (∀ l : Byte, l.toNat ≤ 27 → rom bd c l = 255)

/-- Blue input 128 is neither off nor full on any legal build, and the bound 37 on DIV_B is exact (the spec's inference
R135 from R131 and R133). -/
def Obligations.BlueMidInputIsStrictlyBetween : Prop :=
  (∀ bd : Build, 0 < (rom bd .blue 128).toNat ∧ (rom bd .blue 128).toNat < 255) ∧
  ∀ d : Nat, 1 ≤ d → d ≤ 255 → ((0 < 255 - gamma 128 / d ∧ 255 - gamma 128 / d < 255) ↔ d ≤ 37)

/-- A brighter input never gives a shorter on-time, and input 0 gives none (60_exceptions R271 with the ROM's monotony);
DUTY is a free value (log 13), and the statement holds whatever it is. -/
def Obligations.BrighterInputIsOnNoShorter : Prop :=
  duty 255 = 0 ∧
  ∀ (bd : Build) (c : Channel) (l1 l2 : Byte), l1.toNat ≤ l2.toNat → duty (rom bd c l1) ≤ duty (rom bd c l2)

/-! ## Command words -/

/-- R240: any word with OP 0 is NOP, NOP changes nothing, and it holds like every access while micro-writes are pending
(a hold is a stutter, log 3). -/
def Obligations.NopChangesNothing : Prop :=
  (∀ w : Word, w.extractLsb' 28 4 = 0#4 → decodeWord w = .nop) ∧
  (∀ s : State, exec .nop s = .next s) ∧
  (∀ (s : State) (w : Word) (q : List HostAccess), nextMove s = .host → s.hostQ = ⟨.write w, 0, 4⟩ :: q →
    w.extractLsb' 28 4 = 0#4 → s.pending ≠ [] → step s = .next (takeMove s))

/-- R220: INIT sets INITIALIZED and performs ENABLE in the same step, from any state; its example from reset. The
trace is the model's record of the port actions (log 6). -/
def Obligations.InitConfiguresAndEnables : Prop :=
  (∀ w : Word, w.extractLsb' 28 4 = 1#4 → decodeWord w = .init) ∧ encode .init = 0x10000000 ∧
  (∀ s : State, exec .init s = .next { s with
    initialized := true, anode := 0, boost := false, store := Vector.replicate 6 ⟨255, 255, 255⟩,
    cur := 0, phase := 0, prev := 5, cmpBuf := ⟨255, 255, 255⟩, run := true,
    out := s.out ++ anodesOffTrace ++ [.port (.boost false)] ++ compareTrace 255 255 255 ++
      [.port .timersStart] }) ∧
  (∀ (bd : Build) (t : State), bd.policy = .fivePhase → exec .init State.reset = .next t →
    statusWord bd t = 0x00014003)

/-- R222: ENABLE resets the store, the scan, the lines and the compare buffers and starts the timers, from any state;
the first boundary after it latches 255s and runs the tick of (cur 0, phase 0). -/
def Obligations.EnableResetsStoreAndScan : Prop :=
  (∀ w : Word, w.extractLsb' 28 4 = 2#4 → decodeWord w = .enable) ∧ encode .enable = 0x20000000 ∧
  (∀ s : State, exec .enable s = .next { s with
    anode := 0, boost := false, store := Vector.replicate 6 ⟨255, 255, 255⟩,
    cur := 0, phase := 0, prev := 5, cmpBuf := ⟨255, 255, 255⟩, run := true,
    out := s.out ++ anodesOffTrace ++ [.port (.boost false)] ++ compareTrace 255 255 255 ++
      [.port .timersStart] }) ∧
  (∀ (bd : Build) (late : Bool) (s t : State), exec .enable s = .next t →
    ∃ u, boundary bd late t = .next u ∧ u.cmpAct = ⟨255, 255, 255⟩ ∧ u.cur = 0 ∧ u.phase = 1)

/-- R226: DISABLE stops the timers first and forces every line inactive, from any state, and changes nothing else. -/
def Obligations.DisableForcesEveryLineInactive : Prop :=
  (∀ w : Word, w.extractLsb' 28 4 = 3#4 → decodeWord w = .disable) ∧ encode .disable = 0x30000000 ∧
  (∀ s : State, exec .disable s = .next { s with
    run := false, anode := 0, boost := false,
    out := s.out ++ [.port .timersStop] ++ anodesOffTrace ++ [.port (.boost false)] })

/-- R151, R152: SET_COLOR of a pixel in range takes the three ROM values to the engine: pending, or written in the step
on a build that writes a colour in one step (R153); out of range it only sets ERR_PIXEL; and (0, 0, 0) stores 255. -/
def Obligations.SetColorStoresTheMappedLevels : Prop :=
  (∀ w : Word, w.extractLsb' 28 4 = 4#4 → decodeWord w =
    .setColor (w.extractLsb' 24 4) (w.extractLsb' 16 8) (w.extractLsb' 8 8) (w.extractLsb' 0 8)) ∧
  (∀ (pix : BitVec 4) (r g b : Byte) (s : State),
    exec (.setColor pix r g b) s = .next (setColor Config.build pix r g b s)) ∧
  (∀ (bd : Build) (pix : BitVec 4) (p : Pixel) (r g b : Byte) (s : State), pix.toNat = p.val →
    (bd.atomic = false → setColor bd pix r g b s = { s with
      pending := [⟨p, .red, rom bd .red r⟩, ⟨p, .green, rom bd .green g⟩, ⟨p, .blue, rom bd .blue b⟩] }) ∧
    (bd.atomic = true → setColor bd pix r g b s = { s with
      store := s.store.set p ⟨rom bd .red r, rom bd .green g, rom bd .blue b⟩ })) ∧
  (∀ (pix : BitVec 4) (r g b : Byte) (s : State), 6 ≤ pix.toNat →
    exec (.setColor pix r g b) s = .next { s with errPixel := true }) ∧
  (∀ (bd : Build) (c : Channel), rom bd c 0 = 255) ∧
  (∀ bd : Build, divisor bd .red = 2 → divisor bd .green = 3 → divisor bd .blue = 1 →
    rom bd .red 255 = 128 ∧ rom bd .green 0 = 255 ∧ rom bd .blue 128 = 218)

/-- R157: SET_ALL takes eighteen ROM values to the engine; PIX is ignored, ERR_PIXEL is never set, 0 stores 255. -/
def Obligations.SetAllStoresOneColourEverywhere : Prop :=
  (∀ w : Word, w.extractLsb' 28 4 = 5#4 → decodeWord w =
    .setAll (w.extractLsb' 16 8) (w.extractLsb' 8 8) (w.extractLsb' 0 8)) ∧
  (∀ (r g b : Byte) (s : State), exec (.setAll r g b) s = .next (setAll Config.build r g b s)) ∧
  (∀ (bd : Build) (r g b : Byte) (s : State),
    (bd.atomic = false → setAll bd r g b s = { s with
      pending := (List.finRange 6).flatMap fun p =>
        [⟨p, .red, rom bd .red r⟩, ⟨p, .green, rom bd .green g⟩, ⟨p, .blue, rom bd .blue b⟩] }) ∧
    (bd.atomic = true → setAll bd r g b s = { s with
      store := Vector.replicate 6 ⟨rom bd .red r, rom bd .green g, rom bd .blue b⟩ })) ∧
  (∀ (bd : Build) (c : Channel), rom bd c 0 = 255) ∧
  (∀ bd : Build, divisor bd .red = 2 → divisor bd .green = 3 → divisor bd .blue = 1 →
    rom bd .red 255 = 128 ∧ rom bd .green 255 = 170 ∧ rom bd .blue 255 = 0)

/-- R243: CLR_STATUS clears what its mask selects and nothing else. -/
def Obligations.ClrStatusClearsWhatTheMaskSelects : Prop :=
  (∀ w : Word, w.extractLsb' 28 4 = 6#4 → decodeWord w = .clrStatus (w.extractLsb' 0 6)) ∧
  (∀ (m : BitVec 6) (s : State), exec (.clrStatus m) s = .next { s with
    framePend := if m.getLsbD 0 then false else s.framePend
    ovr       := if m.getLsbD 1 then false else s.ovr
    errPixel  := if m.getLsbD 2 then false else s.errPixel
    errCmd    := if m.getLsbD 3 then false else s.errCmd
    frameCnt  := if m.getLsbD 4 then 0 else s.frameCnt
    ovrCnt    := if m.getLsbD 5 then 0 else s.ovrCnt })

/-- R246: a reserved word, of any opcode 0x7..0xF, sets ERR_CMD and nothing else. -/
def Obligations.ReservedWordSetsErrCmd : Prop :=
  (∀ w : Word, 7 ≤ (w.extractLsb' 28 4).toNat → ∀ s : State,
    exec (decodeWord w) s = .next { s with errCmd := true }) ∧
  (∀ s : State, exec .reserved7 s = .next { s with errCmd := true }) ∧
  (∀ (op : BitVec 4) (s : State), exec (.reserved8F op) s = .next { s with errCmd := true })

/-- The frame of the colour commands (41_color_store section 1): only the store, the pending micro-writes and
ERR_PIXEL may differ; SET_COLOR leaves every cell of the other pixels as it reads, and a build that does not write a
colour in one step leaves every cell to the ENGINE. -/
def Obligations.FrameOfColourCommands : Prop :=
  (∀ (pix : BitVec 4) (r g b : Byte) (s : State),
    exec (.setColor pix r g b) s = .next (setColor Config.build pix r g b s) ∧
    exec (.setAll r g b) s = .next (setAll Config.build r g b s)) ∧
  (∀ (bd : Build) (pix : BitVec 4) (r g b : Byte) (s t : State), t = setColor bd pix r g b s →
    t = { s with store := t.store, pending := t.pending, errPixel := t.errPixel } ∧
    (pix.toNat < 6 → t.errPixel = s.errPixel) ∧
    (∀ (p : Pixel) (c : Channel), p.val ≠ pix.toNat → cell t p c = cell s p c) ∧
    (bd.atomic = true → t.pending = s.pending) ∧
    (bd.atomic = false → t.store = s.store)) ∧
  (∀ (bd : Build) (r g b : Byte) (s t : State), t = setAll bd r g b s →
    t = { s with store := t.store, pending := t.pending } ∧
    (bd.atomic = true → t.pending = s.pending) ∧
    (bd.atomic = false → t.store = s.store))

/-- The frame of NOP, CLR_STATUS and the reserved words (44_status_and_bus section 1): only sticky flags and counters
may differ, and every cell of the store reads as before. -/
def Obligations.FrameOfStatusCommands : Prop :=
  ∀ (i : Instr) (s t : State),
    (i = .nop ∨ (∃ m, i = .clrStatus m) ∨ i = .reserved7 ∨ ∃ op, i = .reserved8F op) →
    exec i s = .next t →
    t = { s with framePend := t.framePend, frameCnt := t.frameCnt, ovr := t.ovr, ovrCnt := t.ovrCnt,
                 errPixel := t.errPixel, errCmd := t.errCmd } ∧
    ∀ (p : Pixel) (c : Channel), cell t p c = cell s p c

/-- The frame of the lifecycle commands (43_lifecycle): flags, counters, enables, CMP_ACT, the pending micro-writes and
the outside world are unchanged; ENABLE leaves INITIALIZED, and DISABLE every cell, the scan and CMP_BUF too. -/
def Obligations.FrameOfLifecycleCommands : Prop :=
  ∀ s t : State,
    (exec .init s = .next t →
      t = { s with initialized := t.initialized, run := t.run, anode := t.anode, boost := t.boost,
                   store := t.store, cur := t.cur, phase := t.phase, prev := t.prev, cmpBuf := t.cmpBuf,
                   out := t.out }) ∧
    (exec .enable s = .next t →
      t = { s with run := t.run, anode := t.anode, boost := t.boost, store := t.store, cur := t.cur,
                   phase := t.phase, prev := t.prev, cmpBuf := t.cmpBuf, out := t.out }) ∧
    (exec .disable s = .next t →
      t = { s with run := t.run, anode := t.anode, boost := t.boost, out := t.out } ∧
      ∀ (p : Pixel) (c : Channel), cell t p c = cell s p c)

/-- On a build that writes a colour in one step, SET_ALL leaves the state the six SET_COLORs leave (the spec's inference
R158 from R151 and R157). -/
def Obligations.SetAllIsSixSetColors : Prop :=
  ∀ (bd : Build) (r g b : Byte) (s : State), bd.atomic = true → s.pending = [] →
    setAll bd r g b s =
      ([0, 1, 2, 3, 4, 5] : List (BitVec 4)).foldl (fun u pix => setColor bd pix r g b u) s

/-- INIT; INIT leaves the state of INIT, but for the trace (the spec's inference R221 from R220 and R222). -/
def Obligations.InitTwiceIsInit : Prop :=
  ∀ s : State, ∃ t u : State, exec .init s = .next t ∧ exec .init t = .next u ∧ u = { t with out := u.out }

/-! ## The host's side -/

/-- A step whose move is the HOST's write of a command word runs the decoded command, in the state with the move and the
access taken and a fresh trace; which move is next is the head of `moves`, else a free value (log 1); and the placed
command (log 17) is run by the very next step. -/
def Obligations.StepRunsThePresentedCommand : Prop :=
  (∀ (s : State) (w : Word) (q : List HostAccess) (i : Instr), nextMove s = .host →
    s.hostQ = ⟨.write w, 0, 4⟩ :: q → s.pending = [] → decodeBytes (bytesOfWord w) = .ok (i, []) →
    step s = exec i { takeMove s with hostQ := q }) ∧
  (∀ (s : State) (m : Move) (ms : List Move), s.moves = m :: ms →
    nextMove s = m ∧ takeMove s = { s with moves := ms, out := [] }) ∧
  (∀ s : State, s.moves = [] →
    nextMove s = Config.freeMove s.draws ∧ takeMove s = { s with draws := s.draws + 1, out := [] }) ∧
  (∀ (s : State) (w : Word),
    step (s.withFetchWord 32 w.toNat) = exec (decodeWord w) { s with pending := [], out := [] })

/-- R80: while micro-writes are pending every admitted access holds, whatever the register, and stays first in the
queue over every step; PORT still steps. A hold is a stutter of the HOST's move (log 3). -/
def Obligations.HostHoldsWhileMicroWritesArePending : Prop :=
  (∀ (s : State) (a : HostAccess) (q : List HostAccess), nextMove s = .host → s.hostQ = a :: q →
    a.size = 4 → a.off.toNat % 4 = 0 → s.pending ≠ [] → step s = .next (takeMove s)) ∧
  (∀ (s t : State) (a : HostAccess) (q : List HostAccess), s.hostQ = a :: q → s.pending ≠ [] →
    step s = .next t → ∃ more, t.hostQ = a :: q ++ more) ∧
  (∀ (s : State) (late : Bool), nextMove s = .port late → s.run = true →
    step s = boundary Config.build late (takeMove s))

/-- R262, R263: an access of another size or at another offset is a BusError whether or not micro-writes are pending;
the step has no next state. And no other access is one. -/
def Obligations.WrongShapedAccessIsABusError : Prop :=
  (∀ (s : State) (a : HostAccess) (q : List HostAccess), nextMove s = .host → s.hostQ = a :: q →
    (a.size ≠ 4 ∨ a.off.toNat % 4 ≠ 0) → step s = .fault (.busError a.off)) ∧
  (∀ (s : State) (o : BitVec 5), step s = .fault (.busError o) →
    nextMove s = .host ∧ ∃ a q, s.hostQ = a :: q ∧ a.off = o ∧ (a.size ≠ 4 ∨ a.off.toNat % 4 ≠ 0))

/-- R241: a read returns the register's value in the state of the step and has no side effect; it holds while
micro-writes are pending, and a misaligned or non-word read is a BusError. -/
def Obligations.ReadReturnsTheRegister : Prop :=
  (∀ (s : State) (off : BitVec 5) (q : List HostAccess), nextMove s = .host →
    s.hostQ = ⟨.read, off, 4⟩ :: q → off.toNat % 4 = 0 → s.pending = [] →
    step s = .next { takeMove s with hostQ := q, out := [.readData (regValue Config.build off s)] }) ∧
  (∀ (s : State) (off : BitVec 5) (q : List HostAccess), nextMove s = .host →
    s.hostQ = ⟨.read, off, 4⟩ :: q → off.toNat % 4 = 0 → s.pending ≠ [] → step s = .next (takeMove s)) ∧
  (∀ (s : State) (off : BitVec 5) (size : Nat) (q : List HostAccess), nextMove s = .host →
    s.hostQ = ⟨.read, off, size⟩ :: q → (size ≠ 4 ∨ off.toNat % 4 ≠ 0) → step s = .fault (.busError off)) ∧
  (∀ (bd : Build) (t : State), bd.policy = .fivePhase → exec .init State.reset = .next t →
    regValue bd 0x04 t = 0x00014003) ∧
  (∀ (bd : Build) (s : State),
    regValue bd 0x00 s = 0 ∧
    regValue bd 0x04 s =
      0#8 ++ s.anode ++ BitVec.ofBool s.boost ++ s.prev ++ s.phase ++ s.cur ++ 0#1 ++
      BitVec.ofBool (bd.policy == .threeStage) ++ BitVec.ofBool s.errCmd ++ BitVec.ofBool s.errPixel ++
      BitVec.ofBool s.ovr ++ BitVec.ofBool s.framePend ++ BitVec.ofBool s.run ++
      BitVec.ofBool s.initialized ∧
    regValue bd 0x08 s = s.ovrCnt ++ s.frameCnt ∧
    regValue bd 0x0C s =
      (BitVec.ofBool s.ieErr ++ BitVec.ofBool s.ieOvr ++ BitVec.ofBool s.ieFrame : BitVec 3).setWidth 32 ∧
    regValue bd 0x10 s = 0#8 ++ s.cmpAct.b ++ s.cmpAct.g ++ s.cmpAct.r ∧
    regValue bd 0x14 s = 0#8 ++ s.cmpBuf.b ++ s.cmpBuf.g ++ s.cmpBuf.r ∧
    regValue bd 0x18 s = 0 ∧ regValue bd 0x1C s = 0)

/-- R50: the fields of STATUS bit by bit, its reset values, and that a write to it is ignored. -/
def Obligations.StatusFieldsStandWhereTheRuleSays : Prop :=
  (∀ (bd : Build) (s : State),
    let w := regValue bd 0x04 s
    w.getLsbD 0 = s.initialized ∧ w.getLsbD 1 = s.run ∧ w.getLsbD 2 = s.framePend ∧
    w.getLsbD 3 = s.ovr ∧ w.getLsbD 4 = s.errPixel ∧ w.getLsbD 5 = s.errCmd ∧
    w.getLsbD 6 = (bd.policy == .threeStage) ∧ w.getLsbD 7 = false ∧
    w.extractLsb' 8 3 = s.cur ∧ w.extractLsb' 11 3 = s.phase ∧ w.extractLsb' 14 3 = s.prev ∧
    w.getLsbD 17 = s.boost ∧ w.extractLsb' 18 6 = s.anode ∧ w.extractLsb' 24 8 = 0) ∧
  (∀ bd : Build,
    (bd.policy = .fivePhase → regValue bd 0x04 State.reset = 0x00014000) ∧
    (bd.policy = .threeStage → regValue bd 0x04 State.reset = 0x00014040)) ∧
  (∀ (s : State) (v : Word) (q : List HostAccess), nextMove s = .host → s.hostQ = ⟨.write v, 0x04, 4⟩ :: q →
    s.pending = [] → step s = .next { takeMove s with hostQ := q })

/-- R242: a write of IRQ_CTRL sets the three enables from bits 2:0, changes nothing else, and raises IRQ at once where
a flag it enables is set; a misaligned or non-word write is a BusError; with FRAME_IE set a FRAME raises IRQ. -/
def Obligations.IrqCtrlWriteSetsTheEnables : Prop :=
  (∀ (s : State) (v : Word) (off : BitVec 5) (size : Nat) (q : List HostAccess), nextMove s = .host →
    s.hostQ = ⟨.write v, off, size⟩ :: q → (size ≠ 4 ∨ off.toNat % 4 ≠ 0) → step s = .fault (.busError off)) ∧
  (∀ s : State, s.ieFrame = true → irq (frameComplete s) = true) ∧
  ∀ (s : State) (v : Word) (q : List HostAccess), nextMove s = .host →
    s.hostQ = ⟨.write v, 0x0C, 4⟩ :: q → s.pending = [] →
    ∃ t, step s = .next t ∧
      t = { takeMove s with hostQ := q, ieErr := v.getLsbD 2, ieOvr := v.getLsbD 1, ieFrame := v.getLsbD 0 } ∧
      ((s.framePend = true ∧ v.getLsbD 0 = true) ∨ (s.ovr = true ∧ v.getLsbD 1 = true) ∨
        ((s.errPixel = true ∨ s.errCmd = true) ∧ v.getLsbD 2 = true) ↔ irq t = true)

/-- R244: a write to a read-only or reserved offset is accepted and ignored. -/
def Obligations.ReadOnlyAndReservedWritesAreIgnored : Prop :=
  ∀ (s : State) (v : Word) (off : BitVec 5) (q : List HostAccess), nextMove s = .host →
    s.hostQ = ⟨.write v, off, 4⟩ :: q → s.pending = [] →
    (off = 0x04 ∨ off = 0x08 ∨ off = 0x10 ∨ off = 0x14 ∨ off = 0x18 ∨ off = 0x1C) →
    step s = .next { takeMove s with hostQ := q }

/-! ## The command engine -/

/-- R153: a micro-write set is written in the accepting step or becomes the pending set, as the build says; each ENGINE
step performs exactly one pending micro-write and removes it; and any of them may be the one. -/
def Obligations.EngineWritesAnyOnePendingCell : Prop :=
  (∀ (bd : Build) (ms : List MicroWrite) (s : State),
    (bd.atomic = true → (ms.map fun m => (m.pix, m.ch)).Nodup →
      (∀ m ∈ ms, cell (submit bd ms s) m.pix m.ch = m.val) ∧
      (∀ p c, (p, c) ∉ ms.map (fun m => (m.pix, m.ch)) → cell (submit bd ms s) p c = cell s p c) ∧
      submit bd ms s = { s with store := (submit bd ms s).store }) ∧
    (bd.atomic = false → submit bd ms s = { s with pending := ms })) ∧
  (∀ (s : State) (k : Nat), nextMove s = .engine k → s.pending ≠ [] →
    ∃ before m after, s.pending = before ++ m :: after ∧
      step s = .next { takeMove s with
        store := s.store.set m.pix ((s.store[m.pix]).put m.ch m.val), pending := before ++ after }) ∧
  (∀ (s : State) (before after : List MicroWrite) (m : MicroWrite), s.pending = before ++ m :: after →
    ∃ k, runMove (.engine k) s = .next { s with
      store := s.store.set m.pix ((s.store[m.pix]).put m.ch m.val), pending := before ++ after })

/-- Whatever the ENGINE's choices, each cell a command writes is old while its micro-write is pending and new after it,
no other cell changes, and once as many steps have run as there were micro-writes the state is the one that writing them
in order gives (the spec's inference R154 from R153 and R79). -/
def Obligations.EngineOrderDoesNotMatter : Prop :=
  ∀ (s : State) (ks : List Nat), (s.pending.map fun m => (m.pix, m.ch)).Nodup →
    (∀ m ∈ s.pending, cell (engineRun ks s) m.pix m.ch =
      if m ∈ (engineRun ks s).pending then cell s m.pix m.ch else m.val) ∧
    (∀ p c, (p, c) ∉ s.pending.map (fun m => (m.pix, m.ch)) → cell (engineRun ks s) p c = cell s p c) ∧
    (s.pending.length ≤ ks.length → engineRun ks s = { writeCells s.pending s with pending := [] })

/-! ## The scan scheduler: what each phase does -/

/-- R180. -/
def Obligations.PreChargeTick : Prop :=
  ∀ (bd : Build) (s : State) (i : Pixel), bd.policy = .fivePhase → s.cur.toNat = i.val →
    s.prev.toNat < 6 → s.phase = 0 →
    tick bd s = .next { s with
      anode := 0, boost := (if (s.store[i]).b = 255 then s.boost else true), cmpBuf := ⟨255, 255, 255⟩, phase := 1,
      out := s.out ++ anodesOffTrace ++ (if (s.store[i]).b = 255 then [] else [.port (.boost true)]) ++
        compareTrace 255 255 255 }

/-- R181. -/
def Obligations.SettleTick : Prop :=
  ∀ (bd : Build) (s : State) (i : Pixel), bd.policy = .fivePhase → s.cur.toNat = i.val →
    s.prev.toNat < 6 → s.phase = 1 →
    tick bd s = .next { s with
      boost := false, cmpBuf := ⟨255, 255, (s.store[i]).b⟩, phase := 2,
      out := s.out ++ [.port (.boost false)] ++ compareTrace 255 255 (s.store[i]).b }

/-- R182. -/
def Obligations.ShowBlueTick : Prop :=
  ∀ (bd : Build) (s : State) (i : Pixel), bd.policy = .fivePhase → s.cur.toNat = i.val →
    s.prev.toNat < 6 → s.phase = 2 →
    tick bd s = .next { s with
      boost := false, anode := 1#6 <<< i.val, cmpBuf := ⟨(s.store[i]).r, 255, 255⟩, phase := 3,
      out := s.out ++ [.port (.boost false)] ++ anodesOffTrace ++ [.port (.anodeSet i true)] ++
        compareTrace (s.store[i]).r 255 255 }

/-- R183. -/
def Obligations.ShowRedTick : Prop :=
  ∀ (bd : Build) (s : State) (i : Pixel), bd.policy = .fivePhase → s.cur.toNat = i.val →
    s.prev.toNat < 6 → s.phase = 3 →
    tick bd s = .next { s with
      cmpBuf := ⟨255, (s.store[i]).g, 255⟩, phase := 4,
      out := s.out ++ compareTrace 255 (s.store[i]).g 255 }

/-- R184, with the advance to the next pixel and the end of the frame after pixel 5 (R178, R193). -/
def Obligations.ShowGreenTick : Prop :=
  ∀ (bd : Build) (s : State) (i : Pixel), bd.policy = .fivePhase → s.cur.toNat = i.val →
    s.prev.toNat < 6 → s.phase = 4 →
    tick bd s = .next { s with
      cmpBuf := ⟨255, 255, 255⟩, cur := if i = 5 then 0 else s.cur + 1, phase := 0, prev := s.cur,
      framePend := s.framePend || i == 5, frameCnt := if i = 5 then s.frameCnt + 1 else s.frameCnt,
      out := s.out ++ compareTrace 255 255 255 ++ (if i = 5 then [.frame] else []) }

/-- R188. -/
def Obligations.DeactivateAndDecideTick : Prop :=
  ∀ (bd : Build) (s : State) (i : Pixel), bd.policy = .threeStage → s.cur.toNat = i.val →
    s.prev.toNat < 6 → s.phase = 0 →
    tick bd s = .next { s with
      anode := 0, boost := (if (s.store[i]).b = 255 then s.boost else true), phase := 1,
      out := s.out ++ anodesOffTrace ++ (if (s.store[i]).b = 255 then [] else [.port (.boost true)]) }

/-- R189. -/
def Obligations.ActivateCurrentTick : Prop :=
  ∀ (bd : Build) (s : State) (i : Pixel), bd.policy = .threeStage → s.cur.toNat = i.val →
    s.prev.toNat < 6 → s.phase = 1 →
    tick bd s = .next { s with
      boost := false, anode := 1#6 <<< i.val, phase := 2,
      out := s.out ++ [.port (.boost false)] ++ anodesOffTrace ++ [.port (.anodeSet i true)] }

/-- R190, with the advance to the next pixel and the end of the frame after pixel 5 (R178, R193). -/
def Obligations.PreloadNextTick : Prop :=
  ∀ (bd : Build) (s : State) (i n : Pixel), bd.policy = .threeStage → s.cur.toNat = i.val →
    s.prev.toNat < 6 → s.phase = 2 → n.val = (i.val + 1) % 6 →
    tick bd s = .next { s with
      cmpBuf := ⟨(s.store[n]).r, (s.store[n]).g, (s.store[n]).b⟩,
      cur := if i = 5 then 0 else s.cur + 1, phase := 0, prev := s.cur,
      framePend := s.framePend || i == 5, frameCnt := if i = 5 then s.frameCnt + 1 else s.frameCnt,
      out := s.out ++ compareTrace (s.store[n]).r (s.store[n]).g (s.store[n]).b ++
        (if i = 5 then [.frame] else []) }

/-! ## The scan scheduler: boundaries -/

/-- R178, R193: the advance of a boundary under either policy, and the frame accounting; `S.prev` is written only by
the advance and by ENABLE, and no port action depends on it. -/
def Obligations.AdvanceAndFrameAccounting : Prop :=
  (∀ (bd : Build) (late : Bool) (s t : State), boundary bd late s = .next t →
    (s.phase.toNat < phaseCount bd - 1 →
      t.phase.toNat = s.phase.toNat + 1 ∧ t.cur = s.cur ∧ t.prev = s.prev ∧
      t.framePend = s.framePend ∧ t.frameCnt = s.frameCnt ∧ t.out.count .frame = s.out.count .frame) ∧
    (s.phase.toNat = phaseCount bd - 1 →
      t.phase = 0 ∧ t.prev = s.cur ∧ t.cur.toNat = (s.cur.toNat + 1) % 6 ∧
      (s.cur = 5 → t.framePend = true ∧ t.frameCnt = s.frameCnt + 1 ∧
        t.out.count .frame = s.out.count .frame + 1) ∧
      (s.cur ≠ 5 → t.framePend = s.framePend ∧ t.frameCnt = s.frameCnt ∧
        t.out.count .frame = s.out.count .frame)) ∧
    (∀ p : BitVec 3, p.toNat < 6 → ∃ u, boundary bd late { s with prev := p } = .next u ∧ u.out = t.out)) ∧
  (∀ s t : State, step s = .next t → t.prev ≠ s.prev →
    (boundaryOfStep s).isSome = true ∨ commandOfStep s = some .enable ∨ commandOfStep s = some .init)

/-- R41, R172: the active compare values change only at a boundary, where they take what the buffers held before its
tick wrote anything. -/
def Obligations.CompareValuesLatchOnlyAtABoundary : Prop :=
  (∀ (bd : Build) (late : Bool) (s t : State), boundary bd late s = .next t → t.cmpAct = s.cmpBuf) ∧
  (∀ s t : State, step s = .next t →
    ((boundaryOfStep s).isSome = true → t.cmpAct = s.cmpBuf) ∧
    (boundaryOfStep s = none → t.cmpAct = s.cmpAct))

/-- R173: a late boundary sets OVR, counts once with saturation, and otherwise is the boundary that is not late. -/
def Obligations.LateBoundaryOnlyRecordsTheOverrun : Prop :=
  ∀ (bd : Build) (s t : State), boundary bd false s = .next t →
    boundary bd true s = .next { t with ovr := true, ovrCnt := if s.ovrCnt = 0xFFFF then 0xFFFF else s.ovrCnt + 1 }

/-- R171: while the block is disabled PORT's move is no boundary, whatever `late` (it is a stutter, log 3); while it is
enabled it is one. -/
def Obligations.NoBoundaryWhileDisabled : Prop :=
  ∀ (s : State) (late : Bool), nextMove s = .port late →
    (s.run = false → step s = .next (takeMove s)) ∧
    (s.run = true → step s = boundary Config.build late (takeMove s))

/-- A boundary completes exactly from a legal scan position (42 R175, and the spec's inference R179; log 8), every
command word completes, and a step stops only for a BusError or an illegal scan position. -/
def Obligations.StepsStopOnlyWhereTheSpecSays : Prop :=
  (∀ (bd : Build) (late : Bool) (s : State),
    (s.cur.toNat < 6 ∧ s.phase.toNat < phaseCount bd ∧ s.prev.toNat < 6 ↔
      ∃ t, boundary bd late s = .next t) ∧
    ((∃ t, boundary bd late s = .next t) ∨ boundary bd late s = .fault .illegalScan)) ∧
  (∀ (i : Instr) (s : State), ∃ t, exec i s = .next t) ∧
  (∀ s : State, (∀ r, step s ≠ .refused r) ∧
    (∀ f, step s = .fault f → (∃ o, f = .busError o) ∨ (f = .illegalScan ∧ (boundaryOfStep s).isSome = true)))

/-! ## Whole-machine laws -/

/-- After every port action of every phase, of ENABLE and of DISABLE, at most one anode is active and none is while the
boost sink is (the spec's inferences R57, R194, R195 from the action tables). -/
def Obligations.EveryPortActionKeepsTheLinesSafe : Prop :=
  ∀ s : State, LinesSafe s →
    (∀ (bd : Build) (f : BitVec 3) (i : Pixel) (d : Store) (as : List PortAction),
      phaseActions bd f i d = some as → ∀ n, LinesSafe (portAll (as.take n) s)) ∧
    (∀ n, LinesSafe (portAll (enableMakeSafe.take n) s)) ∧
    (∀ n, LinesSafe (portAll (enableStart.take n) s)) ∧
    (∀ n, LinesSafe (portAll (disableActions.take n) s))

/-- In every phase an anode is activated right after `AllAnodesOff`, with the boost sink put inactive before it and never
active before it; the boost sink is activated right after `AllAnodesOff`, and only where the pixel's Blue is on
(the spec's inferences R194, R195). -/
def Obligations.ActivationsFollowAllAnodesOff : Prop :=
  ∀ (bd : Build) (f : BitVec 3) (i : Pixel) (d : Store) (as : List PortAction),
    phaseActions bd f i d = some as → ∀ before after : List PortAction,
      (∀ p : Pixel, as = before ++ .anodeSet p true :: after →
        p = i ∧ .boost false ∈ before ∧ .boost true ∉ before ∧ ∃ b0, before = b0 ++ allAnodesOff) ∧
      (as = before ++ .boost true :: after → (d[i]).b ≠ 255 ∧ ∃ b0, before = b0 ++ allAnodesOff)

/-- The scan position stays legal over every step (the spec's inference R56 from R55, R178 and R222). -/
def Obligations.ScanPositionStaysLegal : Prop :=
  ∀ s t : State, ScanLegal Config.build s → step s = .next t → ScanLegal Config.build t

/-- The lines stay safe, and dark while disabled, over every step (the spec's inferences R57 and R228). -/
def Obligations.LinesStaySafeAndDark : Prop :=
  ∀ s t : State, LinesSafe s → DarkWhenDisabled s → step s = .next t → LinesSafe t ∧ DarkWhenDisabled t

/-- Over every step the lines stand as the phases already done of the current pixel leave them, while the block is
enabled: what the display schedules (the spec's inferences R185, R191) say of them between boundaries. -/
def Obligations.LinesFollowTheScan : Prop :=
  ∀ s t : State, LinesFollowScan Config.build s → step s = .next t → LinesFollowScan Config.build t

/-- Every DriveLevel in flight stays an output of the drive ROM for its channel, over every step (the spec's inference
R58; 10_state R33). -/
def Obligations.DriveLevelsStayRomOutputs : Prop :=
  ∀ s t : State, ValuesFromRom Config.build s → step s = .next t → ValuesFromRom Config.build t

/-- Two pending micro-writes never name one cell, and none is pending on a build that writes a colour in one step, over
every step (41_color_store R151, R153, R157). -/
def Obligations.PendingMicroWritesStayLegal : Prop :=
  ∀ s t : State, PendingLegal Config.build s → step s = .next t → PendingLegal Config.build t

/-- The state after power-on reset (the table of 10_state section 12; the store's value there is the model's, log 5, and
is not stated). The invariants hold in it: they rest on the spec's inferences R56 to R58, R185, R191 and R228, not on the
table. -/
def Obligations.ResetStateIsTheRules : Prop :=
  let s := State.reset
  s.cur = 0 ∧ s.phase = 0 ∧ s.prev = 5 ∧ s.initialized = false ∧ s.run = false ∧ s.anode = 0 ∧
  s.boost = false ∧ s.cmpBuf = ⟨255, 255, 255⟩ ∧ s.cmpAct = ⟨255, 255, 255⟩ ∧
  s.framePend = false ∧ s.ovr = false ∧ s.errPixel = false ∧ s.errCmd = false ∧
  s.frameCnt = 0 ∧ s.ovrCnt = 0 ∧ s.ieFrame = false ∧ s.ieOvr = false ∧ s.ieErr = false ∧
  s.pending = [] ∧ Inv Config.build s

/-- Any run of boundaries from the position ENABLE leaves completes, stands at the position its length says, and has
emitted FRAME once per `P x N` boundaries, late or not (the spec's inference R198 from R178 and R222). -/
def Obligations.FrameComesEveryPTimesNBoundaries : Prop :=
  ∀ (bd : Build) (lates : List Bool) (s : State), s.cur = 0 → s.phase = 0 → s.prev = 5 →
    ∃ t, boundaries bd lates s = .next t ∧
      t.cur.toNat = lates.length / phaseCount bd % 6 ∧
      t.phase.toNat = lates.length % phaseCount bd ∧
      t.frameCnt = s.frameCnt + BitVec.ofNat 16 (lates.length / (6 * phaseCount bd)) ∧
      t.out.count .frame = s.out.count .frame + lates.length / (6 * phaseCount bd)

/-- The FIVE_PHASE display schedule (the spec's inference R185): five boundaries of pixel i, with the store changed at
will between them (`d1` to `d3` are the stores the later ticks read), show the table's lines and compare values. -/
def Obligations.FivePhaseDisplaySchedule : Prop :=
  ∀ (bd : Build) (s : State) (i : Pixel) (d1 d2 d3 d4 : Store) (l0 l1 l2 l3 l4 : Bool),
    bd.policy = .fivePhase → s.cur.toNat = i.val → s.prev.toNat < 6 → s.phase = 0 → s.boost = false →
    s.cmpBuf = ⟨255, 255, 255⟩ →
    ∃ t0 t1 t2 t3 t4 : State,
      boundary bd l0 s = .next t0 ∧
      boundary bd l1 { t0 with store := d1 } = .next t1 ∧
      boundary bd l2 { t1 with store := d2 } = .next t2 ∧
      boundary bd l3 { t2 with store := d3 } = .next t3 ∧
      boundary bd l4 { t3 with store := d4 } = .next t4 ∧
      (t0.anode = 0 ∧ t0.boost = ((s.store[i]).b != 255) ∧ t0.cmpAct = ⟨255, 255, 255⟩) ∧
      (t1.anode = 0 ∧ t1.boost = false ∧ t1.cmpAct = ⟨255, 255, 255⟩) ∧
      (t2.anode = 1#6 <<< i.val ∧ t2.boost = false ∧ t2.cmpAct = ⟨255, 255, (d1[i]).b⟩) ∧
      (t3.anode = 1#6 <<< i.val ∧ t3.boost = false ∧ t3.cmpAct = ⟨(d2[i]).r, 255, 255⟩) ∧
      (t4.anode = 1#6 <<< i.val ∧ t4.boost = false ∧ t4.cmpAct = ⟨255, (d3[i]).g, 255⟩) ∧
      t4.cmpBuf = ⟨255, 255, 255⟩ ∧ t4.cur.toNat = (i.val + 1) % 6 ∧ t4.phase = 0

/-- The THREE_STAGE display schedule (the spec's inference R191): the three cycles of pixel i show what the compare buffers
held at its stage-0 boundary, and its stage-2 tick buffers the following pixel's triple for that pixel's cycles. -/
def Obligations.ThreeStageDisplaySchedule : Prop :=
  ∀ (bd : Build) (s : State) (i n : Pixel) (d1 d2 : Store) (l0 l1 l2 : Bool),
    bd.policy = .threeStage → s.cur.toNat = i.val → s.prev.toNat < 6 → s.phase = 0 → s.boost = false →
    n.val = (i.val + 1) % 6 →
    ∃ t0 t1 t2 : State,
      boundary bd l0 s = .next t0 ∧
      boundary bd l1 { t0 with store := d1 } = .next t1 ∧
      boundary bd l2 { t1 with store := d2 } = .next t2 ∧
      (t0.anode = 0 ∧ t0.boost = ((s.store[i]).b != 255) ∧ t0.cmpAct = s.cmpBuf) ∧
      (t1.anode = 1#6 <<< i.val ∧ t1.boost = false ∧ t1.cmpAct = s.cmpBuf) ∧
      (t2.anode = 1#6 <<< i.val ∧ t2.boost = false ∧ t2.cmpAct = s.cmpBuf) ∧
      t2.cmpBuf = d2[n] ∧ t2.cur.toNat = n.val ∧ t2.phase = 0

/-- Display latency (the spec's inference R302): from any legal scan position, every channel of every pixel is displayed
with the store's value within P x N + 1 boundaries under FIVE_PHASE and P x N + 2 under THREE_STAGE, where the lines
follow the scan (`LinesFollowTheScan`). -/
def Obligations.ColourReachesTheDisplayInTime : Prop :=
  ∀ (bd : Build) (s : State) (i : Pixel) (c : Channel) (lates : List Bool), ScanLegal bd s →
    s.run = true → LinesFollowScan bd s →
    (bd.policy = .fivePhase → lates.length = 31 →
      ∃ k, 1 ≤ k ∧ k ≤ 31 ∧ ∃ t, boundaries bd (lates.take k) s = .next t ∧
        t.anode = 1#6 <<< i.val ∧ t.cmpAct.get c = cell s i c) ∧
    (bd.policy = .threeStage → lates.length = 20 →
      ∃ k, 1 ≤ k ∧ k ≤ 20 ∧ ∃ t, boundaries bd (lates.take k) s = .next t ∧
        t.anode = 1#6 <<< i.val ∧ t.cmpAct.get c = cell s i c)

/-- The store's power-on value is never observed (the spec's inference R292): two states that differ in the store alone
while the block is disabled step alike, with the same outputs and the same registers, and from ENABLE on they are equal.
So nothing rests on the model's value of log 5. -/
def Obligations.PowerOnStoreIsNeverObserved : Prop :=
  ∀ s t : State, StoreHidden s t →
    match step s, step t with
    | .next s', .next t' =>
      StoreHidden s' t' ∧ s'.out = t'.out ∧ ∀ bd off, regValue bd off s' = regValue bd off t'
    | .fault f, .fault g => f = g
    | .refused r, .refused r' => r = r'
    | _, _ => False

/-- Who writes the scan position and the run bit (20_memory R83, 10_state R37, 60_exceptions R276): only ENABLE and INIT
start the scan, only DISABLE stops it, and only a boundary, ENABLE or INIT moves the scan position. -/
def Obligations.ScanAndRunHaveOneOwner : Prop :=
  ∀ s t : State, step s = .next t →
    (s.run = false → t.run = true → commandOfStep s = some .enable ∨ commandOfStep s = some .init) ∧
    (s.run = true → t.run = false → commandOfStep s = some .disable) ∧
    (boundaryOfStep s = none →
      (t.cur = s.cur ∧ t.phase = s.phase ∧ t.prev = s.prev) ∨
      ((commandOfStep s = some .enable ∨ commandOfStep s = some .init) ∧ t.cur = 0 ∧ t.phase = 0 ∧ t.prev = 5))

/-- R36: INITIALIZED is set by INIT and by nothing else, no step clears it, and while it is 0 every channel output is
inactive whatever CMP_ACT holds. -/
def Obligations.InitializedIsSetByInitAlone : Prop :=
  (∀ s t : State, step s = .next t →
    (t.initialized = true ↔ s.initialized = true ∨ commandOfStep s = some .init)) ∧
  (∀ (s : State) (c : Channel),
    (s.initialized = false → outLevel s c = 255 ∧ constantInactive s c = true) ∧
    (s.initialized = true → outLevel s c = s.cmpAct.get c))

/-- Who sets and clears the sticky flags (10_state R42 to R44, R48): a boundary FRAME_PEND, a late boundary OVR, an
out-of-range SET_COLOR ERR_PIXEL, a reserved word ERR_CMD; only CLR_STATUS clears, and only what its mask selects. One
step records at most one error (the spec's inference R263). -/
def Obligations.StickyFlagsHaveTheirOwnWriters : Prop :=
  ∀ s t : State, step s = .next t →
    (s.framePend = false → t.framePend = true → (boundaryOfStep s).isSome = true) ∧
    (s.ovr = false → t.ovr = true → boundaryOfStep s = some true) ∧
    (s.errPixel = false → t.errPixel = true →
      ∃ pix r g b, commandOfStep s = some (.setColor pix r g b) ∧ 6 ≤ pix.toNat) ∧
    (s.errCmd = false → t.errCmd = true →
      commandOfStep s = some .reserved7 ∨ ∃ op, commandOfStep s = some (.reserved8F op)) ∧
    (s.framePend = true → t.framePend = false → ∃ m, commandOfStep s = some (.clrStatus m) ∧ m.getLsbD 0 = true) ∧
    (s.ovr = true → t.ovr = false → ∃ m, commandOfStep s = some (.clrStatus m) ∧ m.getLsbD 1 = true) ∧
    (s.errPixel = true → t.errPixel = false → ∃ m, commandOfStep s = some (.clrStatus m) ∧ m.getLsbD 2 = true) ∧
    (s.errCmd = true → t.errCmd = false → ∃ m, commandOfStep s = some (.clrStatus m) ∧ m.getLsbD 3 = true) ∧
    ((if s.ovr = false ∧ t.ovr = true then 1 else 0) + (if s.errPixel = false ∧ t.errPixel = true then 1 else 0) +
      (if s.errCmd = false ∧ t.errCmd = true then 1 else 0) ≤ 1)
end

