-- ==== Sys2Proof/Tests/Slice0.lean ====
section
/-! SUPPORT. The model's own tests, each of one step or less, with results taken from 95_test_vectors (its row V<n>) or
worked out from the rule named; and one witness for the hypotheses of every statement that has hypotheses. -/

namespace Sys2Proof.Tests

open Sys2Proof Sys2Proof.Machine

/-- TC1 (00_scope R10): DIV_R = 2, DIV_G = 3, DIV_B = 1. -/
def tc1 (p : Policy) (atomic : Bool) : Build := ⟨p, 1, 2, 0, atomic⟩

/-- TC1 under FIVE_PHASE, the vectors' default. -/
abbrev five : Build := tc1 .fivePhase false

/-- TC1 under THREE_STAGE. -/
abbrev three : Build := tc1 .threeStage false

/-- The next state, if there is one. -/
def nextOf (o : Host.Outcome State Fault Refusal) : Option State :=
  match o with
  | .next t => some t
  | .fault _ => none
  | .refused _ => none

/-- The fault, if there is one. -/
def faultOf (o : Host.Outcome State Fault Refusal) : Option Fault :=
  match o with
  | .next _ => none
  | .fault f => some f
  | .refused _ => none

/-- A scanning state: initialized, enabled, at a scan position, with D[2] = (128, 255, 218), all other pixels off. -/
def scanning (cur phase prev : BitVec 3) : State :=
  { State.reset with
    initialized := true, run := true, cur := cur, phase := phase, prev := prev
    store := (Vector.replicate 6 ⟨255, 255, 255⟩).set 2 ⟨128, 255, 218⟩ }

/-- A state whose next step is the HOST's, with one access presented. -/
def hostState (a : HostAccess) (s : State) : State := { s with hostQ := [a], moves := [.host] }

/-- A state whose next step is PORT's. -/
def portState (late : Bool) (s : State) : State := { s with moves := [.port late] }

/-- Two micro-writes of one SET_COLOR of pixel 2, pending. -/
def twoPending : List MicroWrite := [⟨2, .red, 128⟩, ⟨2, .blue, 218⟩]

/-! ### Well-formedness: each check refuses an ill-formed term -/

theorem test_wf_reserved_opcode : (Instr.reserved8F 7).wf = false ∧ (Instr.reserved8F 8).wf = true := by decide
theorem test_admitted_size : HostAccess.admitted ⟨.read, 4, 1⟩ = false := by decide
theorem test_admitted_offset : HostAccess.admitted ⟨.read, 6, 4⟩ = false := by decide
theorem test_admitted_word : HostAccess.admitted ⟨.read, 4, 4⟩ = true := by decide

/-! ### Decoding, from words written out from 30_encoding R100 and R102 (V19 to V36) -/

theorem test_decode_nop : decodeWord 0x00000000 = .nop ∧ decodeWord 0x0ABCDEF1 = .nop := by decide
theorem test_decode_init : decodeWord 0x10000000 = .init ∧ decodeWord 0x1FFFFFFF = .init := by decide
theorem test_decode_enable : decodeWord 0x20000000 = .enable := by decide
theorem test_decode_disable : decodeWord 0x30000000 = .disable := by decide
theorem test_decode_setColor :
    decodeWord 0x42FF0080 = .setColor 2 255 0 128 ∧ decodeWord 0x45010203 = .setColor 5 1 2 3 ∧
    decodeWord 0x46FFFFFF = .setColor 6 255 255 255 ∧ decodeWord 0x4F000000 = .setColor 15 0 0 0 := by decide
theorem test_decode_setAll :
    decodeWord 0x50FFFFFF = .setAll 255 255 255 ∧ decodeWord 0x5A000000 = .setAll 0 0 0 := by decide
theorem test_decode_clrStatus :
    decodeWord 0x6000003F = .clrStatus 63 ∧ decodeWord 0x600000FF = .clrStatus 63 ∧
    decodeWord 0x60000010 = .clrStatus 16 := by decide
theorem test_decode_reserved7 : decodeWord 0x70000000 = .reserved7 := by decide
theorem test_decode_reserved8F :
    decodeWord 0x8FFFFFFF = .reserved8F 8 ∧ decodeWord 0xF0000000 = .reserved8F 15 := by decide

/-- The words of the bit patterns of R102, as the opcode table numbers them. -/
theorem test_decodeTableWord :
    decodeTableWord 32 0x00000000 = some .nop ∧ decodeTableWord 32 0x10000000 = some .init ∧
    decodeTableWord 32 0x20000000 = some .enable ∧ decodeTableWord 32 0x30000000 = some .disable ∧
    decodeTableWord 32 0x42FF0080 = some (.setColor 2 255 0 128) ∧
    decodeTableWord 32 0x508000FF = some (.setAll 128 0 255) ∧
    decodeTableWord 32 0x6000003F = some (.clrStatus 63) ∧ decodeTableWord 32 0x70000000 = some .reserved7 ∧
    decodeTableWord 32 0xF0000000 = some (.reserved8F 15) := by decide

/-- The word of R110 byte by byte, the least significant byte first (20_memory R73), with a byte left over. -/
theorem test_decode_bytes :
    decodeBytes [0x80, 0x00, 0xFF, 0x42, 0x99] = .ok (.setColor 2 255 0 128, [0x99]) := rfl

theorem test_decode_truncated : decodeBytes [0x80, 0x00, 0xFF] = .error .truncated := rfl

/-! ### The drive ROM (V1 to V18) -/

theorem test_rom_tc1 :
    rom five .red 255 = 128 ∧ rom five .green 255 = 170 ∧ rom five .blue 255 = 0 ∧ rom five .red 0 = 255 ∧
    rom five .blue 27 = 255 ∧ rom five .blue 28 = 254 ∧ rom five .red 28 = 255 ∧ rom five .red 41 = 254 ∧
    rom five .green 51 = 254 ∧ rom five .blue 128 = 218 ∧ rom five .green 128 = 243 ∧ rom five .red 131 = 236 ∧
    rom five .blue 254 = 3 := by decide

/-- V14 to V17: the greatest legal divisors. -/
theorem test_rom_bounds :
    rom ⟨.fivePhase, 0, 0, 36, false⟩ .blue 128 = 254 ∧ rom ⟨.fivePhase, 0, 0, 36, false⟩ .blue 127 = 255 ∧
    rom ⟨.fivePhase, 254, 254, 36, false⟩ .red 255 = 254 ∧
    rom ⟨.fivePhase, 254, 254, 36, false⟩ .red 254 = 255 := by decide

/-! ### One command -/

/-- V66, V67: STATUS after INIT. -/
theorem test_init_status :
    (nextOf (exec .init State.reset)).map (statusWord five) = some 0x00014003 ∧
    (nextOf (exec .init State.reset)).map (statusWord three) = some 0x00014043 := by decide

/-- V68: ENABLE keeps CMP_ACT and resets CMP_BUF and the store. -/
theorem test_enable_keeps_cmpAct :
    (nextOf (exec .enable { scanning 2 3 1 with anode := 4, cmpAct := ⟨255, 255, 0⟩, cmpBuf := ⟨128, 255, 255⟩ })).map
      (fun t => (tripleWord t.cmpAct, tripleWord t.cmpBuf, statusWord five t, cell t 2 .red)) =
    some (0x0000FFFF, 0x00FFFFFF, 0x00014003, 255) := by decide

/-- P4 line 5: DISABLE at (2, 3, 1) with anode 2 active keeps the scan position. -/
theorem test_disable_status :
    (nextOf (exec .disable { scanning 2 3 1 with anode := 4 })).map (statusWord five) = some 0x00005A01 := by decide

/-- V73: the actions of DISABLE, the timers first. -/
theorem test_disable_actions :
    (nextOf (exec .disable State.reset)).map State.out =
    some ([.port .timersStop, .port (.anodeSet 0 false), .port (.anodeSet 1 false), .port (.anodeSet 2 false),
      .port (.anodeSet 3 false), .port (.anodeSet 4 false), .port (.anodeSet 5 false), .port (.boost false)]) := by
  decide

/-- V37: the micro-writes of SET_COLOR 2, 255, 0, 128. -/
theorem test_setColor_pending :
    (setColor five 2 255 0 128 State.reset).pending = [⟨2, .red, 128⟩, ⟨2, .green, 255⟩, ⟨2, .blue, 218⟩] := by decide

/-- V42, V44: PIX 6 and 15 only set ERR_PIXEL (STATUS 0x00014013 after INIT). -/
theorem test_setColor_range :
    statusWord five (setColor five 6 255 255 255 (scanning 0 0 5)) = 0x00014013 ∧
    (setColor five 15 255 0 0 State.reset).pending = [] := by decide

/-- V45, V49: SET_ALL 255, 255, 255 on a build that writes a colour in one step. -/
theorem test_setAll_atomic :
    (setAll (tc1 .fivePhase true) 255 255 255 State.reset).store = Vector.replicate 6 ⟨128, 170, 0⟩ := by decide

/-- R157: SET_ALL has 18 micro-writes. -/
theorem test_setAll_pending : (setAll five 128 0 255 State.reset).pending.length = 18 := by decide

/-- V65: CLR_STATUS 2 clears OVR and leaves the count. -/
theorem test_clrStatus_ovr :
    (nextOf (exec (.clrStatus 2) { State.reset with ovr := true, ovrCnt := 2, errCmd := true })).map
      (fun t => (t.ovr, countersWord t, t.errCmd)) = some (false, 0x00020000, true) := by decide

/-- V64: CLR_STATUS 16 clears FRAME_CNT alone. -/
theorem test_clrStatus_frameCnt :
    (nextOf (exec (.clrStatus 16) { State.reset with framePend := true, frameCnt := 2, ovrCnt := 1 })).map
      (fun t => (t.framePend, countersWord t)) = some (true, 0x00010000) := by decide

/-- V93: a reserved word sets ERR_CMD, beside ERR_PIXEL (STATUS 0x00014030), and IRQ with ERR_IE set. -/
theorem test_reserved8F :
    (nextOf (exec (.reserved8F 15) { State.reset with errPixel := true, ieErr := true })).map
      (fun t => (statusWord five t, irq t)) = some (0x00014030, true) := by decide

theorem test_reserved7 : (nextOf (exec .reserved7 State.reset)).map (statusWord five) = some 0x00014020 := by decide

theorem test_nop : (nextOf (exec .nop State.reset)).map (statusWord five) = some 0x00014000 := by decide

/-! ### One boundary (V50 to V61; 2.6) -/

/-- V50: PreCharge with Blue on. -/
theorem test_preCharge :
    (nextOf (boundary five false (scanning 2 0 1))).map
      (fun t => (statusWord five t, tripleWord t.cmpBuf)) = some (0x00024A03, 0x00FFFFFF) := by decide

/-- V55: PreCharge with Blue off: no boost. -/
theorem test_preCharge_blue_off :
    (nextOf (boundary five false { scanning 2 0 1 with store := Vector.replicate 6 ⟨128, 255, 255⟩ })).map
      (statusWord five) = some 0x00004A03 := by decide

/-- V51. -/
theorem test_settle :
    (nextOf (boundary five false { scanning 2 1 1 with boost := true })).map
      (fun t => (statusWord five t, tripleWord t.cmpBuf)) = some (0x00005203, 0x00DAFFFF) := by decide

/-- V52. -/
theorem test_showBlue :
    (nextOf (boundary five false { scanning 2 2 1 with cmpBuf := ⟨255, 255, 218⟩ })).map
      (fun t => (statusWord five t, tripleWord t.cmpAct, tripleWord t.cmpBuf)) =
    some (0x00105A03, 0x00DAFFFF, 0x00FFFF80) := by decide

/-- V53. -/
theorem test_showRed :
    (nextOf (boundary five false { scanning 2 3 1 with anode := 4, cmpBuf := ⟨128, 255, 255⟩ })).map
      (fun t => (statusWord five t, tripleWord t.cmpAct, tripleWord t.cmpBuf)) =
    some (0x00106203, 0x00FFFF80, 0x00FFFFFF) := by decide

/-- V54. -/
theorem test_showGreen :
    (nextOf (boundary five false { scanning 2 4 1 with anode := 4 })).map (statusWord five) = some 0x00108303 := by
  decide

/-- V56: the end of a frame, with its event last. -/
theorem test_end_of_frame :
    (nextOf (boundary five false { scanning 5 4 4 with anode := 32 })).map
      (fun t => (statusWord five t, t.frameCnt, t.out)) =
    some (0x00814007, 1, [.port (.compare .red 255), .port (.compare .green 255), .port (.compare .blue 255),
      .frame]) := by decide

/-- 2.6, boundary 7: stage 0 of pixel 2 with Blue on, and the latch of the preloaded triple. -/
theorem test_stage0 :
    (nextOf (boundary three false { scanning 2 0 1 with anode := 2, cmpBuf := ⟨128, 255, 218⟩ })).map
      (fun t => (t.anode, t.boost, t.cmpAct, t.cmpBuf)) =
    some (0, true, ⟨128, 255, 218⟩, ⟨128, 255, 218⟩) := by decide

/-- 2.6, boundary 8. -/
theorem test_stage1 :
    (nextOf (boundary three false { scanning 2 1 1 with boost := true })).map (fun t => (t.anode, t.boost)) =
    some (4, false) := by decide

/-- 2.6, boundary 6: stage 2 of pixel 1 preloads pixel 2. -/
theorem test_stage2 :
    (nextOf (boundary three false (scanning 1 2 0))).map (fun t => (t.cmpBuf, t.cur, t.phase, t.prev)) =
    some (⟨128, 255, 218⟩, 2, 0, 1) := by decide

/-- V60: a late boundary. -/
theorem test_late :
    (nextOf (boundary five true (scanning 0 0 5))).map (fun t => (statusWord five t, t.ovrCnt)) =
    some (0x0001480B, 1) := by decide

/-- V61: OVR_CNT saturates; FRAME_CNT wraps (V62, its last boundary). -/
theorem test_counters_at_their_end :
    (nextOf (boundary five true { scanning 5 4 4 with ovrCnt := 0xFFFF, frameCnt := 0xFFFF })).map countersWord =
    some 0xFFFF0000 := by decide

/-- I11: a tick from phase 5, or from pixel 6, faults. -/
theorem test_illegal_scan :
    faultOf (boundary five false (scanning 2 5 1)) = some .illegalScan ∧
    faultOf (boundary five false (scanning 6 0 5)) = some .illegalScan := by decide

/-! ### Host accesses (V74 to V91) -/

/-- V88 to V91. -/
theorem test_busError :
    faultOf (step (hostState ⟨.read, 4, 1⟩ State.reset)) = some (.busError 4) ∧
    faultOf (step (hostState ⟨.write 0, 0, 2⟩ State.reset)) = some (.busError 0) ∧
    faultOf (step (hostState ⟨.read, 6, 4⟩ State.reset)) = some (.busError 6) ∧
    faultOf (step (hostState ⟨.write 0, 2, 4⟩ State.reset)) = some (.busError 2) := by decide

/-- V74 to V81: the registers at reset, under FIVE_PHASE. -/
theorem test_registers_at_reset :
    regValue five 0x00 State.reset = 0 ∧ regValue five 0x04 State.reset = 0x00014000 ∧
    regValue five 0x08 State.reset = 0 ∧ regValue five 0x0C State.reset = 0 ∧
    regValue five 0x10 State.reset = 0x00FFFFFF ∧ regValue five 0x14 State.reset = 0x00FFFFFF ∧
    regValue five 0x18 State.reset = 0 ∧ regValue five 0x1C State.reset = 0 := by decide

/-- V87: the write of IRQ_CTRL keeps three bits. -/
theorem test_irq_ctrl :
    (nextOf (step (hostState ⟨.write 0xFFFFFFFF, 0x0C, 4⟩ State.reset))).map (fun t => (irqCtrlWord t, irq t)) =
    some (7, false) := by decide

/-- 20_memory R80: an access holds while a micro-write is pending, and a wrong one is a BusError all the same (R263). -/
theorem test_hold :
    (nextOf (step (hostState (cmdWrite 0x30000000) { scanning 0 0 5 with pending := twoPending }))).map
      (fun t => (t.hostQ, t.run)) = some ([cmdWrite 0x30000000], true) ∧
    faultOf (step (hostState ⟨.read, 1, 4⟩ { State.reset with pending := twoPending })) = some (.busError 1) := by
  decide

/-- 41_color_store R153: ENGINE may take the second pending micro-write first. -/
theorem test_engine_choice :
    (nextOf (step { State.reset with pending := twoPending, moves := [.engine 1] })).map
      (fun t => (cell t 2 .blue, cell t 2 .red, t.pending)) = some (218, 0, [⟨2, .red, 128⟩]) := by decide

/-- The first step after reset runs the placed word (log 17). -/
theorem test_withFetchWord :
    (nextOf (step (State.reset.withFetchWord 32 0x10000000))).map (fun t => (t.initialized, t.run)) =
    some (true, true) := by decide

/-- Byte 3 of STATUS is its highest (20_memory R73); byte 2 of it at reset is 0x01 (PREV 5). -/
theorem test_regByte : regByte five 0x06 State.reset = 0x01 ∧ regByte five 0x05 State.reset = 0x40 := by decide

/-- 00_scope R3. -/
theorem test_identifier : identifier five = "M38-LEDSCAN-1-5P" ∧ identifier three = "M38-LEDSCAN-1-3S" := by decide

/-- 30_encoding R108: the moves of `SET_COLOR 2, 255, 0, 128` and of `TICK late`. -/
theorem test_script :
    lineMoves (.cmd (.setColor 2 255 0 128)) =
      [.issue ⟨.write 0x42FF0080, 0, 4⟩, .host, .engine 0, .engine 0, .engine 0] ∧
    lineMoves (.tick true) = [.port true] ∧
    expandPseudo (.irqEn 5) = .wr 0x0C 5 := by decide

/-! ### Witnesses: the hypotheses of each statement hold together somewhere -/

theorem witness_DecodeOfEncodeIsTheCommand :
    (Instr.reserved8F 8).wf = true ∧ (Instr.reserved8F 15).wf = true ∧ (Instr.setColor 15 255 0 128).wf = true := by
  decide

/-- A word in each arm, at the ends of the reserved range, and a word presented. -/
theorem witness_DecodeSelectsTheArmOfTheOpcode :
    (let s := hostState ⟨.write 0x7FFFFFFF, 0, 4⟩ State.reset
     nextMove s = .host ∧ s.hostQ = ⟨.write 0x7FFFFFFF, 0, 4⟩ :: [] ∧ s.pending = []) ∧
    (0x0FFFFFFF#32).extractLsb' 28 4 = 0x0#4 ∧ (0x1FFFFFFF#32).extractLsb' 28 4 = 0x1#4 ∧
    (0x2FFFFFFF#32).extractLsb' 28 4 = 0x2#4 ∧ (0x3FFFFFFF#32).extractLsb' 28 4 = 0x3#4 ∧
    (0x4FFFFFFF#32).extractLsb' 28 4 = 0x4#4 ∧ (0x5FFFFFFF#32).extractLsb' 28 4 = 0x5#4 ∧
    (0x6FFFFFFF#32).extractLsb' 28 4 = 0x6#4 ∧ (0x7FFFFFFF#32).extractLsb' 28 4 = 0x7#4 ∧
    8 ≤ ((0x80000000#32).extractLsb' 28 4).toNat ∧ 8 ≤ ((0xFFFFFFFF#32).extractLsb' 28 4).toNat := by decide

theorem witness_GammaTableIsTheRoundedCurve : (254 : Byte) ≠ 255 ∧ (0 : Byte) ≠ 255 := by decide

theorem witness_RomHoldsInvertedScaledGamma : divisor five .blue = 1 := by decide

theorem witness_RomIsMonotoneAndBounded :
    (254 : Byte).toNat < (255 : Byte).toNat ∧ (27 : Byte).toNat ≤ 27 := by decide

theorem witness_BlueMidInputIsStrictlyBetween :
    (1 ≤ 1 ∧ 1 ≤ 255 ∧ 1 ≤ 37) ∧ (1 ≤ 255 ∧ 255 ≤ 255 ∧ ¬ 255 ≤ 37) ∧ (1 ≤ 38 ∧ 38 ≤ 255 ∧ ¬ 38 ≤ 37) := by decide

theorem witness_BrighterInputIsOnNoShorter : (0 : Byte).toNat ≤ (255 : Byte).toNat := by decide

/-- The state of a NOP that holds. -/
theorem witness_NopChangesNothing :
    (0x0ABCDEF1#32).extractLsb' 28 4 = 0#4 ∧
    (let s := hostState ⟨.write 0x0ABCDEF1, 0, 4⟩ { State.reset with pending := twoPending }
     nextMove s = .host ∧ s.hostQ = ⟨.write 0x0ABCDEF1, 0, 4⟩ :: [] ∧ s.pending ≠ []) := by decide

theorem witness_InitConfiguresAndEnables :
    (0x1FFFFFFF#32).extractLsb' 28 4 = 1#4 ∧ five.policy = .fivePhase ∧
    ∃ t, exec .init State.reset = .next t := ⟨by decide, rfl, _, rfl⟩

theorem witness_EnableResetsStoreAndScan :
    (0x2FFFFFFF#32).extractLsb' 28 4 = 2#4 ∧ ∃ t, exec .enable (scanning 2 3 1) = .next t := ⟨by decide, _, rfl⟩

theorem witness_DisableForcesEveryLineInactive : (0x3FFFFFFF#32).extractLsb' 28 4 = 3#4 := by decide

/-- Both ends of the pixel range, and both kinds of build. -/
theorem witness_SetColorStoresTheMappedLevels :
    (0x42FF0080#32).extractLsb' 28 4 = 4#4 ∧ (0 : BitVec 4).toNat = (0 : Pixel).val ∧
    (5 : BitVec 4).toNat = (5 : Pixel).val ∧ 6 ≤ (6 : BitVec 4).toNat ∧ 6 ≤ (15 : BitVec 4).toNat ∧
    five.atomic = false ∧ (tc1 .fivePhase true).atomic = true ∧
    divisor five .red = 2 ∧ divisor five .green = 3 ∧ divisor five .blue = 1 := by decide

theorem witness_SetAllStoresOneColourEverywhere :
    (0x5A000000#32).extractLsb' 28 4 = 5#4 ∧ five.atomic = false ∧ (tc1 .fivePhase true).atomic = true ∧
    divisor five .red = 2 ∧ divisor five .green = 3 ∧ divisor five .blue = 1 := by decide

theorem witness_ClrStatusClearsWhatTheMaskSelects : (0x600000FF#32).extractLsb' 28 4 = 6#4 := by decide

theorem witness_ReservedWordSetsErrCmd :
    7 ≤ ((0x70000000#32).extractLsb' 28 4).toNat ∧ 7 ≤ ((0xFFFFFFFF#32).extractLsb' 28 4).toNat := by decide

theorem witness_FrameOfColourCommands :
    (∃ t, t = setColor five 5 1 2 3 State.reset) ∧ (5 : BitVec 4).toNat < 6 ∧ (0 : Pixel).val ≠ (5 : BitVec 4).toNat ∧
    five.atomic = false ∧ (tc1 .fivePhase true).atomic = true ∧ (∃ t, t = setAll five 1 2 3 State.reset) :=
  ⟨⟨_, rfl⟩, by decide, by decide, rfl, rfl, ⟨_, rfl⟩⟩

theorem witness_FrameOfStatusCommands :
    (∃ t, exec .nop State.reset = .next t) ∧ (∃ t, exec (.clrStatus 63) State.reset = .next t) ∧
    (∃ t, exec .reserved7 State.reset = .next t) ∧ (∃ t, exec (.reserved8F 15) State.reset = .next t) :=
  ⟨⟨_, rfl⟩, ⟨_, rfl⟩, ⟨_, rfl⟩, ⟨_, rfl⟩⟩

theorem witness_FrameOfLifecycleCommands :
    (∃ t, exec .init State.reset = .next t) ∧ (∃ t, exec .enable State.reset = .next t) ∧
    (∃ t, exec .disable (scanning 2 3 1) = .next t) := ⟨⟨_, rfl⟩, ⟨_, rfl⟩, ⟨_, rfl⟩⟩

theorem witness_SetAllIsSixSetColors : (tc1 .fivePhase true).atomic = true ∧ State.reset.pending = [] := by decide

theorem witness_StepRunsThePresentedCommand :
    let s := hostState ⟨.write 0x42FF0080, 0, 4⟩ State.reset
    nextMove s = .host ∧ s.hostQ = ⟨.write 0x42FF0080, 0, 4⟩ :: [] ∧ s.pending = [] ∧
    decodeBytes (bytesOfWord 0x42FF0080) = .ok (.setColor 2 255 0 128, []) ∧
    s.moves = .host :: [] ∧ State.reset.moves = [] := ⟨rfl, rfl, rfl, rfl, rfl, rfl⟩

/-- A held access, and a boundary while it holds: both answer a next state, whatever the build. -/
theorem witness_HostHoldsWhileMicroWritesArePending :
    (let s := hostState ⟨.read, 4, 4⟩ { scanning 0 0 5 with pending := twoPending }
     nextMove s = .host ∧ s.hostQ = ⟨.read, 4, 4⟩ :: [] ∧ s.pending ≠ [] ∧ ∃ t, step s = .next t) ∧
    (let s := portState true (scanning 0 0 5)
     nextMove s = .port true ∧ s.run = true) :=
  ⟨⟨rfl, rfl, by decide, _, rfl⟩, rfl, rfl⟩

theorem witness_WrongShapedAccessIsABusError :
    (let s := hostState ⟨.read, 31, 4⟩ State.reset
     nextMove s = .host ∧ s.hostQ = ⟨.read, 31, 4⟩ :: [] ∧ (31 : BitVec 5).toNat % 4 ≠ 0 ∧
     step s = .fault (.busError 31)) ∧
    step (hostState ⟨.write 0, 0, 8⟩ State.reset) = .fault (.busError 0) := ⟨⟨rfl, rfl, by decide, rfl⟩, rfl⟩

theorem witness_ReadReturnsTheRegister :
    (let s := hostState ⟨.read, 0x1C, 4⟩ State.reset
     nextMove s = .host ∧ s.hostQ = ⟨.read, 0x1C, 4⟩ :: [] ∧ (0x1C : BitVec 5).toNat % 4 = 0 ∧ s.pending = []) ∧
    (let s := hostState ⟨.read, 0x1C, 4⟩ { State.reset with pending := twoPending }
     nextMove s = .host ∧ s.hostQ = ⟨.read, 0x1C, 4⟩ :: [] ∧ s.pending ≠ []) ∧
    (let s := hostState ⟨.read, 0x1F, 4⟩ State.reset
     nextMove s = .host ∧ s.hostQ = ⟨.read, 0x1F, 4⟩ :: [] ∧ (0x1F : BitVec 5).toNat % 4 ≠ 0) ∧
    five.policy = .fivePhase ∧ ∃ t, exec .init State.reset = .next t :=
  ⟨by decide, by decide, by decide, rfl, _, rfl⟩

theorem witness_StatusFieldsStandWhereTheRuleSays :
    five.policy = .fivePhase ∧ three.policy = .threeStage ∧
    (let s := hostState ⟨.write 0xFFFFFFFF, 0x04, 4⟩ State.reset
     nextMove s = .host ∧ s.hostQ = ⟨.write 0xFFFFFFFF, 0x04, 4⟩ :: [] ∧ s.pending = []) := by decide

/-- With FRAME_PEND set and FRAME_IE written, IRQ rises (V96). -/
theorem witness_IrqCtrlWriteSetsTheEnables :
    (let s := hostState ⟨.write 1, 0x0C, 4⟩ { State.reset with framePend := true }
     nextMove s = .host ∧ s.hostQ = ⟨.write 1, 0x0C, 4⟩ :: [] ∧ s.pending = [] ∧ s.framePend = true ∧
     (nextOf (step s)).map irq = some true) ∧
    (let s := hostState ⟨.write 1, 0x0C, 2⟩ State.reset
     nextMove s = .host ∧ s.hostQ = ⟨.write 1, 0x0C, 2⟩ :: [] ∧ 2 ≠ 4) ∧
    ({ State.reset with ieFrame := true } : State).ieFrame = true := by decide

theorem witness_ReadOnlyAndReservedWritesAreIgnored :
    let s := hostState ⟨.write 0xFFFFFFFF, 0x1C, 4⟩ State.reset
    nextMove s = .host ∧ s.hostQ = ⟨.write 0xFFFFFFFF, 0x1C, 4⟩ :: [] ∧ s.pending = [] := by decide

theorem witness_EngineWritesAnyOnePendingCell :
    (tc1 .fivePhase true).atomic = true ∧ five.atomic = false ∧ (twoPending.map fun m => (m.pix, m.ch)).Nodup ∧
    (let s : State := { State.reset with pending := twoPending, moves := [.engine 1] }
     nextMove s = .engine 1 ∧ s.pending ≠ [] ∧ s.pending = [⟨2, .red, 128⟩] ++ ⟨2, .blue, 218⟩ :: []) := by decide

theorem witness_EngineOrderDoesNotMatter :
    (twoPending.map fun m => (m.pix, m.ch)).Nodup ∧ ((0, .red) : Pixel × Channel) ∉ twoPending.map (fun m => (m.pix, m.ch)) ∧
    twoPending.length ≤ ([1, 0] : List Nat).length := by decide

/-! Both ends of the pixel range, for the tick statements of both policies. -/

theorem witness_PreChargeTick :
    five.policy = .fivePhase ∧
    ((scanning 0 0 5).cur.toNat = (0 : Pixel).val ∧ (scanning 0 0 5).prev.toNat < 6 ∧ (scanning 0 0 5).phase = 0) ∧
    ((scanning 5 0 4).cur.toNat = (5 : Pixel).val ∧ (scanning 5 0 4).prev.toNat < 6 ∧ (scanning 5 0 4).phase = 0) := by
  decide

theorem witness_SettleTick :
    five.policy = .fivePhase ∧
    ((scanning 0 1 5).cur.toNat = (0 : Pixel).val ∧ (scanning 0 1 5).prev.toNat < 6 ∧ (scanning 0 1 5).phase = 1) ∧
    ((scanning 5 1 4).cur.toNat = (5 : Pixel).val ∧ (scanning 5 1 4).prev.toNat < 6 ∧ (scanning 5 1 4).phase = 1) := by
  decide

theorem witness_ShowBlueTick :
    five.policy = .fivePhase ∧
    ((scanning 0 2 5).cur.toNat = (0 : Pixel).val ∧ (scanning 0 2 5).prev.toNat < 6 ∧ (scanning 0 2 5).phase = 2) ∧
    ((scanning 5 2 4).cur.toNat = (5 : Pixel).val ∧ (scanning 5 2 4).prev.toNat < 6 ∧ (scanning 5 2 4).phase = 2) := by
  decide

theorem witness_ShowRedTick :
    five.policy = .fivePhase ∧
    ((scanning 0 3 5).cur.toNat = (0 : Pixel).val ∧ (scanning 0 3 5).prev.toNat < 6 ∧ (scanning 0 3 5).phase = 3) ∧
    ((scanning 5 3 4).cur.toNat = (5 : Pixel).val ∧ (scanning 5 3 4).prev.toNat < 6 ∧ (scanning 5 3 4).phase = 3) := by
  decide

theorem witness_ShowGreenTick :
    five.policy = .fivePhase ∧
    ((scanning 0 4 5).cur.toNat = (0 : Pixel).val ∧ (scanning 0 4 5).prev.toNat < 6 ∧ (scanning 0 4 5).phase = 4) ∧
    ((scanning 5 4 4).cur.toNat = (5 : Pixel).val ∧ (scanning 5 4 4).prev.toNat < 6 ∧ (scanning 5 4 4).phase = 4) := by
  decide

theorem witness_DeactivateAndDecideTick :
    three.policy = .threeStage ∧
    ((scanning 0 0 5).cur.toNat = (0 : Pixel).val ∧ (scanning 0 0 5).prev.toNat < 6 ∧ (scanning 0 0 5).phase = 0) ∧
    ((scanning 5 0 4).cur.toNat = (5 : Pixel).val ∧ (scanning 5 0 4).prev.toNat < 6 ∧ (scanning 5 0 4).phase = 0) := by
  decide

theorem witness_ActivateCurrentTick :
    three.policy = .threeStage ∧
    ((scanning 0 1 5).cur.toNat = (0 : Pixel).val ∧ (scanning 0 1 5).prev.toNat < 6 ∧ (scanning 0 1 5).phase = 1) ∧
    ((scanning 5 1 4).cur.toNat = (5 : Pixel).val ∧ (scanning 5 1 4).prev.toNat < 6 ∧ (scanning 5 1 4).phase = 1) := by
  decide

theorem witness_PreloadNextTick :
    three.policy = .threeStage ∧
    ((scanning 0 2 5).cur.toNat = (0 : Pixel).val ∧ (scanning 0 2 5).prev.toNat < 6 ∧ (scanning 0 2 5).phase = 2 ∧
      (1 : Pixel).val = ((0 : Pixel).val + 1) % 6) ∧
    ((scanning 5 2 4).cur.toNat = (5 : Pixel).val ∧ (scanning 5 2 4).prev.toNat < 6 ∧ (scanning 5 2 4).phase = 2 ∧
      (0 : Pixel).val = ((5 : Pixel).val + 1) % 6) := by
  decide

/-- The last phase before the advance, the end of a pixel and the end of a frame, under both policies. -/
theorem witness_AdvanceAndFrameAccounting :
    (∃ t, boundary five true (scanning 4 3 3) = .next t) ∧ (scanning 4 3 3).phase.toNat < phaseCount five - 1 ∧
    (∃ t, boundary five true (scanning 4 4 3) = .next t) ∧ (scanning 4 4 3).phase.toNat = phaseCount five - 1 ∧
    (scanning 4 4 3).cur ≠ 5 ∧ (∃ t, boundary five true (scanning 5 4 4) = .next t) ∧ (scanning 5 4 4).cur = 5 ∧
    (∃ t, boundary three false (scanning 5 2 4) = .next t) ∧ (scanning 5 2 4).phase.toNat = phaseCount three - 1 ∧
    (5 : BitVec 3).toNat < 6 ∧
    (let s := hostState (cmdWrite 0x20000000) (scanning 2 3 1)
     (∃ t, step s = .next t) ∧ (nextOf (step s)).map State.prev = some 5 ∧ s.prev = 1) :=
  ⟨⟨_, rfl⟩, by decide, ⟨_, rfl⟩, by decide, by decide, ⟨_, rfl⟩, rfl, ⟨_, rfl⟩, by decide, by decide,
    ⟨_, rfl⟩, by decide, rfl⟩

theorem witness_LateBoundaryOnlyRecordsTheOverrun :
    (∃ t, boundary five false (scanning 0 0 5) = .next t) ∧
    (∃ t, boundary five false { scanning 5 4 4 with ovrCnt := 0xFFFF } = .next t) := ⟨⟨_, rfl⟩, ⟨_, rfl⟩⟩

theorem witness_NoBoundaryWhileDisabled :
    nextMove (portState true State.reset) = .port true ∧ (portState true State.reset).run = false ∧
    nextMove (portState true (scanning 0 0 5)) = .port true ∧ (portState true (scanning 0 0 5)).run = true := by decide

/-- Whatever the build, a boundary from the first scan position steps. -/
theorem port_steps (late : Bool) : ∃ t, step (portState late (scanning 0 0 5)) = .next t := by
  rw [step_eq]
  show ∃ t, boundary Config.build late _ = .next t
  rcases Config.build with ⟨p, _, _, _, _⟩
  cases p <;> cases late <;> exact ⟨_, rfl⟩

theorem witness_CompareValuesLatchOnlyAtABoundary :
    (∃ t, boundary five false (scanning 2 2 1) = .next t) ∧
    (∃ t, step (portState false (scanning 0 0 5)) = .next t) ∧
    (boundaryOfStep (portState false (scanning 0 0 5))).isSome = true ∧
    (∃ t, step (hostState (cmdWrite 0x20000000) (scanning 0 0 5)) = .next t) ∧
    boundaryOfStep (hostState (cmdWrite 0x20000000) (scanning 0 0 5)) = none :=
  ⟨⟨_, rfl⟩, port_steps false, rfl, ⟨_, rfl⟩, rfl⟩

/-- The legal ends of the scan position, and a state that does not meet it. -/
theorem witness_StepsStopOnlyWhereTheSpecSays :
    ((scanning 5 4 5).cur.toNat < 6 ∧ (scanning 5 4 5).phase.toNat < phaseCount five ∧ (scanning 5 4 5).prev.toNat < 6) ∧
    ¬ ((scanning 5 3 5).phase.toNat < phaseCount three) ∧
    step (hostState ⟨.read, 3, 4⟩ State.reset) = .fault (.busError 3) :=
  ⟨by decide, by decide, rfl⟩

/-- Safe lines with an anode active, and with the boost sink active; actions of a phase of each policy. -/
theorem witness_EveryPortActionKeepsTheLinesSafe :
    LinesSafe { scanning 2 3 1 with anode := 4 } ∧ LinesSafe { scanning 2 1 1 with boost := true } ∧
    (phaseActions five 2 2 (scanning 2 2 1).store).isSome = true ∧
    (phaseActions three 1 2 (scanning 2 1 1).store).isSome = true := by decide

/-- An activation of an anode, and one of the boost sink. -/
theorem witness_ActivationsFollowAllAnodesOff :
    phaseActions five 2 2 (scanning 2 2 1).store =
      some ((.boost false :: allAnodesOff) ++ .anodeSet 2 true :: compareAll 128 255 255) ∧
    phaseActions three 0 2 (scanning 2 0 1).store = some (allAnodesOff ++ .boost true :: []) := by decide

/-- ROM(c, 0) is the off sentinel, so 255 is an output of the ROM for every channel. -/
theorem off_is_rom_value (bd : Build) (c : Channel) : RomValue bd c 255 :=
  ⟨0, BitVec.eq_of_toNat_eq (by rw [rom_toNat, gamma_zero]; simp)⟩

/-- One state for the invariants over a step: enabled at the first position, all off, with a late boundary next. -/
def invariantState : State := portState true { scanning 0 0 5 with store := allOffStore }

theorem invariantState_steps : ∃ t, step invariantState = .next t := by
  rw [step_eq]
  show ∃ t, boundary Config.build true (takeMove invariantState) = .next t
  rcases Config.build with ⟨p, _, _, _, _⟩
  cases p <;> exact ⟨_, rfl⟩

theorem witness_ScanPositionStaysLegal :
    ScanLegal Config.build invariantState ∧ ∃ t, step invariantState = .next t :=
  ⟨⟨by decide, phaseCount_pos _, by decide, by decide⟩, invariantState_steps⟩

theorem witness_LinesStaySafeAndDark :
    LinesSafe invariantState ∧ DarkWhenDisabled invariantState ∧ ∃ t, step invariantState = .next t :=
  ⟨by decide, by decide, invariantState_steps⟩

theorem witness_LinesFollowTheScan :
    LinesFollowScan Config.build invariantState ∧ ∃ t, step invariantState = .next t := by
  refine ⟨fun _ => ⟨by decide, by decide, by decide, ?_⟩, invariantState_steps⟩
  unfold displayFrom
  cases Config.build.policy <;> decide

theorem witness_DriveLevelsStayRomOutputs :
    ValuesFromRom Config.build invariantState ∧ ∃ t, step invariantState = .next t := by
  refine ⟨⟨by decide, fun c => ?_, fun _ p c => ?_⟩, invariantState_steps⟩
  · constructor <;> cases c <;> exact off_is_rom_value ..
  · have h : cell invariantState p c = 255 := by revert p; cases c <;> decide
    rw [h]; exact off_is_rom_value ..

theorem witness_PendingMicroWritesStayLegal :
    PendingLegal Config.build invariantState ∧ ∃ t, step invariantState = .next t :=
  ⟨⟨by decide, fun _ => rfl⟩, invariantState_steps⟩

theorem witness_FrameComesEveryPTimesNBoundaries :
    (scanning 0 0 5).cur = 0 ∧ (scanning 0 0 5).phase = 0 ∧ (scanning 0 0 5).prev = 5 := by decide

theorem witness_FivePhaseDisplaySchedule :
    five.policy = .fivePhase ∧ (scanning 5 0 4).cur.toNat = (5 : Pixel).val ∧ (scanning 5 0 4).prev.toNat < 6 ∧
    (scanning 5 0 4).phase = 0 ∧ (scanning 5 0 4).boost = false ∧ (scanning 5 0 4).cmpBuf = ⟨255, 255, 255⟩ := by decide

theorem witness_ThreeStageDisplaySchedule :
    three.policy = .threeStage ∧ (scanning 5 0 4).cur.toNat = (5 : Pixel).val ∧ (scanning 5 0 4).prev.toNat < 6 ∧
    (scanning 5 0 4).phase = 0 ∧ (scanning 5 0 4).boost = false ∧ (0 : Pixel).val = ((5 : Pixel).val + 1) % 6 := by decide

/-- A position in the middle of a pixel, where the waits are longest. -/
theorem witness_ColourReachesTheDisplayInTime :
    ScanLegal five { scanning 2 3 1 with anode := 4 } ∧ (scanning 2 3 1).run = true ∧
    LinesFollowScan five { scanning 2 3 1 with anode := 4 } ∧ five.policy = .fivePhase ∧
    (List.replicate 31 true).length = 31 ∧
    ScanLegal three (scanning 5 0 4) ∧ LinesFollowScan three (scanning 5 0 4) ∧ three.policy = .threeStage ∧
    (List.replicate 20 true).length = 20 :=
  ⟨by decide, rfl, by decide, rfl, rfl, by decide, by decide, rfl, rfl⟩

/-- Two stores, and the block disabled. -/
theorem witness_PowerOnStoreIsNeverObserved :
    StoreHidden State.reset { State.reset with store := allOffStore } ∧
    State.reset ≠ { State.reset with store := allOffStore } := ⟨.inr ⟨rfl, rfl⟩, by decide⟩

theorem witness_ScanAndRunHaveOneOwner :
    (let s := hostState (cmdWrite 0x20000000) State.reset
     s.run = false ∧ boundaryOfStep s = none ∧ (nextOf (step s)).map State.run = some true) ∧
    (let s := hostState (cmdWrite 0x30000000) (scanning 2 3 1)
     s.run = true ∧ boundaryOfStep s = none ∧ (nextOf (step s)).map State.run = some false) := by decide

theorem witness_InitializedIsSetByInitAlone :
    (nextOf (step (hostState (cmdWrite 0x10000000) State.reset))).map State.initialized = some true ∧
    State.reset.initialized = false ∧ (scanning 0 0 5).initialized = true := by decide

/-- A step that sets each flag, and one that clears all four. -/
theorem witness_StickyFlagsHaveTheirOwnWriters :
    (∃ s t, step s = .next t ∧ s.framePend = false ∧ t.framePend = true ∧ s.ovr = false ∧ t.ovr = true) ∧
    (∃ s t, step s = .next t ∧ s.errPixel = false ∧ t.errPixel = true) ∧
    (∃ s t, step s = .next t ∧ s.errCmd = false ∧ t.errCmd = true) ∧
    (∃ s t, step s = .next t ∧ s.framePend = true ∧ s.ovr = true ∧ s.errPixel = true ∧ s.errCmd = true ∧
      t.framePend = false ∧ t.ovr = false ∧ t.errPixel = false ∧ t.errCmd = false) := by
  refine ⟨?_, ⟨hostState (cmdWrite 0x46FFFFFF) State.reset, _, rfl, rfl, rfl⟩,
    ⟨hostState (cmdWrite 0xF0000000) State.reset, _, rfl, rfl, rfl⟩,
    ⟨hostState (cmdWrite 0x6000003F) { State.reset with framePend := true, ovr := true, errPixel := true, errCmd := true },
      _, rfl, rfl, rfl, rfl, rfl, rfl, rfl, rfl, rfl⟩⟩
  have h : ∀ bd : Build, ∃ s t, nextMove s = .port true ∧ s.run = true ∧ boundary bd true (takeMove s) = .next t ∧
      s.framePend = false ∧ t.framePend = true ∧ s.ovr = false ∧ t.ovr = true := by
    rintro ⟨p, _, _, _, _⟩
    cases p
    · exact ⟨portState true (scanning 5 4 4), _, rfl, rfl, rfl, rfl, rfl, rfl, rfl⟩
    · exact ⟨portState true (scanning 5 2 4), _, rfl, rfl, rfl, rfl, rfl, rfl, rfl⟩
  obtain ⟨s, t, hm, hr, hb, h1, h2, h3, h4⟩ := h Config.build
  refine ⟨s, t, ?_, h1, h2, h3, h4⟩
  rw [step_eq, hm]
  simp only [runMove, portStep, takeMove_run, hr, if_true, hb]

end Sys2Proof.Tests
end

section
/-! Proofs about the state family: which operations may change CMP_ACT and INITIALIZED, and the fields of STATUS. -/

namespace Sys2Proof.Machine

/-! ### Frames of the operations that commands and boundaries are made of -/

@[simp] theorem portAll_initialized (as : List PortAction) (s : State) :
    (portAll as s).initialized = s.initialized := by
  rw [portAll_only_lines]

/-- The command engine takes a micro-write set into the store or into the pending set, and touches nothing else. -/
theorem submit_only_store_pending (bd : Build) (ms : List MicroWrite) (s : State) :
    submit bd ms s = { s with store := (submit bd ms s).store, pending := (submit bd ms s).pending } := by
  unfold submit
  split
  · rw [writeCells_only_store]
  · rfl

@[simp] theorem submit_initialized (bd : Build) (ms : List MicroWrite) (s : State) :
    (submit bd ms s).initialized = s.initialized := by
  rw [submit_only_store_pending]

@[simp] theorem submit_cmpAct (bd : Build) (ms : List MicroWrite) (s : State) :
    (submit bd ms s).cmpAct = s.cmpAct := by
  rw [submit_only_store_pending]

@[simp] theorem setColor_initialized (bd : Build) (pix : BitVec 4) (r g b : Byte) (s : State) :
    (setColor bd pix r g b s).initialized = s.initialized := by
  unfold setColor
  split <;> simp

@[simp] theorem setColor_cmpAct (bd : Build) (pix : BitVec 4) (r g b : Byte) (s : State) :
    (setColor bd pix r g b s).cmpAct = s.cmpAct := by
  unfold setColor
  split <;> simp

@[simp] theorem setAll_initialized (bd : Build) (r g b : Byte) (s : State) :
    (setAll bd r g b s).initialized = s.initialized :=
  submit_initialized ..

@[simp] theorem setAll_cmpAct (bd : Build) (r g b : Byte) (s : State) : (setAll bd r g b s).cmpAct = s.cmpAct :=
  submit_cmpAct ..

@[simp] theorem engineStep_initialized (k : Nat) (s : State) : (engineStep k s).initialized = s.initialized := by
  unfold engineStep
  split <;> rfl

@[simp] theorem engineStep_cmpAct (k : Nat) (s : State) : (engineStep k s).cmpAct = s.cmpAct := by
  unfold engineStep
  split <;> rfl

@[simp] theorem enable_initialized (s : State) : (enable s).initialized = s.initialized := by
  simp [enable, resetScanAndStore]

@[simp] theorem enable_cmpAct (s : State) : (enable s).cmpAct = s.cmpAct := by
  simp [enable, resetScanAndStore]

@[simp] theorem overrunRecord_store (late : Bool) (s : State) : (overrunRecord late s).store = s.store := by
  cases late <;> simp

@[simp] theorem overrunRecord_cur (late : Bool) (s : State) : (overrunRecord late s).cur = s.cur := by
  cases late <;> simp

@[simp] theorem overrunRecord_phase (late : Bool) (s : State) : (overrunRecord late s).phase = s.phase := by
  cases late <;> simp

@[simp] theorem overrunRecord_prev (late : Bool) (s : State) : (overrunRecord late s).prev = s.prev := by
  cases late <;> simp

@[simp] theorem overrunRecord_initialized (late : Bool) (s : State) :
    (overrunRecord late s).initialized = s.initialized := by
  cases late <;> simp

@[simp] theorem overrunRecord_cmpAct (late : Bool) (s : State) : (overrunRecord late s).cmpAct = s.cmpAct := by
  cases late <;> simp

/-- Advance moves the scan position and, at the end of a frame, records it; nothing else changes (42 R178, R193). -/
theorem advance_only_scan_frame (bd : Build) (i : Pixel) (s : State) :
    advance bd i s = { s with
      cur := (advance bd i s).cur, phase := (advance bd i s).phase, prev := (advance bd i s).prev,
      framePend := (advance bd i s).framePend, frameCnt := (advance bd i s).frameCnt, out := (advance bd i s).out } := by
  unfold advance
  split
  · rfl
  · split <;> rfl

@[simp] theorem advance_initialized (bd : Build) (i : Pixel) (s : State) :
    (advance bd i s).initialized = s.initialized := by
  rw [advance_only_scan_frame]

@[simp] theorem advance_cmpAct (bd : Build) (i : Pixel) (s : State) : (advance bd i s).cmpAct = s.cmpAct := by
  rw [advance_only_scan_frame]

/-- All a boundary can do when it completes, and from which scan positions it does: latch, overrun record, the phase's
port actions, Advance (42 R170, R174). -/
theorem boundary_next (bd : Build) (late : Bool) (s t : State) :
    boundary bd late s = .next t ↔
      ∃ i as, s.cur.toNat = i.val ∧ s.prev.toNat < 6 ∧ phaseActions bd s.phase i s.store = some as ∧
        t = advance bd i (portAll as (overrunRecord late (latch s))) := by
  simp [boundary, tick_next, scanPixel?_eq_some, and_assoc]

/-! ### CMP_ACT -/

/-- No command changes CMP_ACT. -/
theorem exec_cmpAct {i : Instr} {s t : State} (h : exec i s = .next t) : t.cmpAct = s.cmpAct := by
  cases i <;> cases h <;> simp

/-- A boundary leaves in CMP_ACT what CMP_BUF held before its tick (10_state R41, 42 R172). -/
theorem boundary_cmpAct {bd : Build} {late : Bool} {s t : State} (h : boundary bd late s = .next t) :
    t.cmpAct = s.cmpBuf := by
  obtain ⟨i, as, -, -, -, rfl⟩ := (boundary_next _ _ _ _).mp h
  simp

/-- A step without a boundary leaves CMP_ACT alone, whichever agent moves. -/
theorem step_cmpAct_of_no_boundary {s t : State} (h : step s = .next t) (hb : boundaryOfStep s = none) :
    t.cmpAct = s.cmpAct := by
  rcases step_cases h with ⟨i, q, -, -, he⟩ | ⟨-, -, hq⟩ | ⟨late, -, hl, -⟩
  · simpa using exec_cmpAct he
  · rcases hq with ⟨v, q, -, -, rfl⟩ | ⟨v, q, -, -, rfl⟩ | ⟨q, rfl⟩ | ⟨k, -, rfl⟩ <;> simp
  · simp [hb] at hl

/-- A step that delivers a boundary latches CMP_BUF. -/
theorem step_cmpAct_of_boundary {s t : State} (h : step s = .next t) (hb : (boundaryOfStep s).isSome = true) :
    t.cmpAct = s.cmpBuf := by
  rcases step_cases h with ⟨i, q, -, hn, -⟩ | ⟨-, hn, -⟩ | ⟨late, -, -, ht⟩
  · simp [hn] at hb
  · simp [hn] at hb
  · simpa using boundary_cmpAct ht

/-- Settles O41: over a boundary by its inversion, over a step by the moves a step can make. -/
theorem compareValuesLatchOnlyAtABoundary : Obligations.CompareValuesLatchOnlyAtABoundary :=
  ⟨fun _ _ _ _ h => boundary_cmpAct h,
    fun _ _ h => ⟨step_cmpAct_of_boundary h, step_cmpAct_of_no_boundary h⟩⟩

/-! ### INITIALIZED -/

/-- INIT sets INITIALIZED, and every other command leaves it as it was. -/
theorem exec_initialized {i : Instr} {s t : State} (h : exec i s = .next t) :
    t.initialized = true ↔ s.initialized = true ∨ i = .init := by
  cases i <;> cases h <;> simp

theorem boundary_initialized {bd : Build} {late : Bool} {s t : State} (h : boundary bd late s = .next t) :
    t.initialized = s.initialized := by
  obtain ⟨i, as, -, -, -, rfl⟩ := (boundary_next _ _ _ _).mp h
  simp

/-- INITIALIZED after a step: it was set before, or the step ran INIT. -/
theorem step_initialized {s t : State} (h : step s = .next t) :
    t.initialized = true ↔ s.initialized = true ∨ commandOfStep s = some .init := by
  rcases step_cases h with ⟨i, q, hc, -, he⟩ | ⟨hc, -, hq⟩ | ⟨late, hc, -, ht⟩
  · simpa [hc] using exec_initialized he
  · rcases hq with ⟨v, q, -, -, rfl⟩ | ⟨v, q, -, -, rfl⟩ | ⟨q, rfl⟩ | ⟨k, -, rfl⟩ <;> simp [hc]
  · simp [hc, boundary_initialized ht]

/-- Before INIT a channel's output is the off sentinel (10_state R36, R45). -/
@[simp] theorem outLevel_of_not_initialized {s : State} (h : s.initialized = false) (c : Channel) :
    outLevel s c = 255 := by
  simp [outLevel, h]

/-- After INIT a channel's output is its active compare value (10_state R45). -/
@[simp] theorem outLevel_of_initialized {s : State} (h : s.initialized = true) (c : Channel) :
    outLevel s c = s.cmpAct.get c := by
  simp [outLevel, h]

/-- Settles O59: by the moves a step can make, and by the two cases of a channel's output. -/
theorem initializedIsSetByInitAlone : Obligations.InitializedIsSetByInitAlone :=
  ⟨fun _ _ h => step_initialized h,
    fun _ c => ⟨fun h => ⟨outLevel_of_not_initialized h c, by simp [constantInactive, h]⟩,
      fun h => outLevel_of_initialized h c⟩⟩

/-! ### Host accesses that are performed -/

theorem admitted_iff (a : HostAccess) : a.admitted = true ↔ a.size = 4 ∧ a.off.toNat % 4 = 0 := by
  simp [HostAccess.admitted]

/-- An admitted access, presented first with nothing pending, is taken and performed (20_memory R74, R80). -/
theorem step_of_admitted_access {s : State} {a : HostAccess} {q : List HostAccess} (hm : nextMove s = .host)
    (hq : s.hostQ = a :: q) (ha : a.admitted = true) (hp : s.pending = []) :
    step s = hostAccess a { takeMove s with hostQ := q } := by
  simp [step_eq, hm, runMove, hostStep, hq, ha, hp]

/-- A write to a slot other than CMD and IRQ_CTRL is ignored (44 R244). -/
theorem hostWrite_ignored {off : BitVec 5} (h0 : off ≠ 0x00) (hc : off ≠ 0x0C) (v : Word) (s : State) :
    hostWrite off v s = .next s := by
  unfold hostWrite
  split
  · exact absurd rfl h0
  · exact absurd rfl hc
  · rfl

/-! ### STATUS -/

theorem regValue_status (bd : Build) (s : State) : regValue bd 0x04 s = statusWord bd s := rfl

theorem policyBit_eq (bd : Build) : policyBit bd = (bd.policy == .threeStage) := by
  unfold policyBit
  cases bd.policy <;> rfl

/-- The single bits of STATUS (10_state R50). -/
theorem statusWord_bits (bd : Build) (s : State) :
    (statusWord bd s).getLsbD 0 = s.initialized ∧ (statusWord bd s).getLsbD 1 = s.run ∧
    (statusWord bd s).getLsbD 2 = s.framePend ∧ (statusWord bd s).getLsbD 3 = s.ovr ∧
    (statusWord bd s).getLsbD 4 = s.errPixel ∧ (statusWord bd s).getLsbD 5 = s.errCmd ∧
    (statusWord bd s).getLsbD 6 = policyBit bd ∧ (statusWord bd s).getLsbD 7 = false ∧
    (statusWord bd s).getLsbD 17 = s.boost := by
  simp only [statusWord, BitVec.getLsbD_append]
  simp

/-- The multi-bit fields of STATUS (10_state R50). -/
theorem statusWord_fields (bd : Build) (s : State) :
    (statusWord bd s).extractLsb' 8 3 = s.cur ∧ (statusWord bd s).extractLsb' 11 3 = s.phase ∧
    (statusWord bd s).extractLsb' 14 3 = s.prev ∧ (statusWord bd s).extractLsb' 18 6 = s.anode ∧
    (statusWord bd s).extractLsb' 24 8 = 0 := by
  simp (disch := omega) only [statusWord, BitVec.extractLsb'_append_eq_of_le, BitVec.extractLsb'_append_eq_of_add_le]
  simp

/-- STATUS at reset depends on the build through its policy bit alone (10_state R50). -/
theorem statusWord_reset (bd : Build) :
    statusWord bd State.reset = if policyBit bd then 0x00014040 else 0x00014000 := by
  unfold statusWord
  cases policyBit bd <;> rfl

/-- Settles O27: the bits and fields of STATUS, its reset values, and a write to it performed and ignored. -/
theorem statusFieldsStandWhereTheRuleSays : Obligations.StatusFieldsStandWhereTheRuleSays := by
  refine ⟨fun bd s => ?_, fun bd => ⟨fun h => ?_, fun h => ?_⟩, fun s v q hm hq hp => ?_⟩
  · obtain ⟨b0, b1, b2, b3, b4, b5, b6, b7, b17⟩ := statusWord_bits bd s
    obtain ⟨hcur, hphase, hprev, hanode, htop⟩ := statusWord_fields bd s
    rw [policyBit_eq] at b6
    exact ⟨b0, b1, b2, b3, b4, b5, b6, b7, hcur, hphase, hprev, b17, hanode, htop⟩
  · rw [regValue_status]; simp [statusWord_reset, policyBit_eq, h]
  · rw [regValue_status]; simp [statusWord_reset, policyBit_eq, h]
  · rw [step_of_admitted_access hm hq ((admitted_iff _).mpr ⟨rfl, by simp⟩) hp]
    exact hostWrite_ignored (off := 0x04) (by decide) (by decide) v _

end Sys2Proof.Machine
end

section
/-! Proofs about the memory family: what holds a host access, and what any step does to the accesses presented. -/

namespace Sys2Proof.Machine

/-! ### Accesses presented, through the operations of ENGINE and PORT -/

@[simp] theorem engineStep_hostQ (k : Nat) (s : State) : (engineStep k s).hostQ = s.hostQ := by
  unfold engineStep
  split <;> rfl

@[simp] theorem portAll_hostQ (as : List PortAction) (s : State) : (portAll as s).hostQ = s.hostQ := by
  rw [portAll_only_lines]

@[simp] theorem overrunRecord_hostQ (late : Bool) (s : State) : (overrunRecord late s).hostQ = s.hostQ := by
  cases late <;> simp

@[simp] theorem advance_hostQ (bd : Build) (i : Pixel) (s : State) : (advance bd i s).hostQ = s.hostQ := by
  rw [advance_only_scan_frame]

theorem boundary_hostQ {bd : Build} {late : Bool} {s t : State} (h : boundary bd late s = .next t) :
    t.hostQ = s.hostQ := by
  obtain ⟨i, as, -, -, -, rfl⟩ := (boundary_next _ _ _ _).mp h
  simp

theorem portStep_hostQ {bd : Build} {late : Bool} {s t : State} (h : portStep bd late s = .next t) :
    t.hostQ = s.hostQ := by
  unfold portStep at h
  split at h
  · exact boundary_hostQ h
  · cases h; rfl

/-! ### The HOST's move -/

@[simp] theorem hostStep_of_no_access {u : State} (hq : u.hostQ = []) : hostStep u = .next u := by
  simp [hostStep, hq]

/-- An admitted access holds while micro-writes are pending, whatever its register (20_memory R80). -/
theorem hostStep_of_held_access {u : State} {a : HostAccess} {q : List HostAccess} (hq : u.hostQ = a :: q)
    (ha : a.admitted = true) (hp : u.pending ≠ []) : hostStep u = .next u := by
  simp [hostStep, hq, ha, hp]

/-- An access that is not admitted stops the machine, held or not (60_exceptions R262, R263). -/
theorem hostStep_of_not_admitted {u : State} {a : HostAccess} {q : List HostAccess} (hq : u.hostQ = a :: q)
    (ha : a.admitted = false) : hostStep u = .fault (.busError a.off) := by
  simp [hostStep, hq, ha]

/-- While micro-writes are pending the HOST's move changes nothing, or stops the machine. -/
theorem hostStep_of_pending {u t : State} (hp : u.pending ≠ []) (h : hostStep u = .next t) : t = u := by
  cases hq : u.hostQ with
  | nil =>
    rw [hostStep_of_no_access hq] at h
    cases h; rfl
  | cons a q =>
    cases ha : a.admitted with
    | true =>
      rw [hostStep_of_held_access hq ha hp] at h
      cases h; rfl
    | false =>
      rw [hostStep_of_not_admitted hq ha] at h
      cases h

/-! ### The step -/

/-- The HOST's move on a held access takes the move and nothing else. -/
theorem step_of_held_access {s : State} {a : HostAccess} {q : List HostAccess} (hm : nextMove s = .host)
    (hq : s.hostQ = a :: q) (ha : a.admitted = true) (hp : s.pending ≠ []) : step s = .next (takeMove s) := by
  rw [step_eq, hm]
  exact hostStep_of_held_access (by simpa using hq) ha (by simpa using hp)

/-- PORT's move delivers a boundary while the run bit is set, whatever is pending or presented (42 R171). -/
theorem step_of_running_port {s : State} {late : Bool} (hm : nextMove s = .port late) (hr : s.run = true) :
    step s = boundary Config.build late (takeMove s) := by
  simp [step_eq, hm, runMove, portStep, hr]

/-- While micro-writes are pending a step takes none of the accesses presented: it can only add to them. -/
theorem step_hostQ_of_pending {s t : State} (hp : s.pending ≠ []) (h : step s = .next t) :
    ∃ more, t.hostQ = s.hostQ ++ more := by
  rw [step_eq] at h
  cases hm : nextMove s with
  | host =>
    rw [hm] at h
    exact ⟨[], by simp [hostStep_of_pending (by simpa using hp) h]⟩
  | engine k =>
    rw [hm] at h
    cases h
    exact ⟨[], by simp⟩
  | port late =>
    rw [hm] at h
    exact ⟨[], by simpa using portStep_hostQ h⟩
  | issue a =>
    rw [hm] at h
    cases h
    exact ⟨[a], by simp⟩

/-- Settles O24: the HOST's move on a held access, what any step does to the accesses presented, and PORT's move. -/
theorem hostHoldsWhileMicroWritesArePending : Obligations.HostHoldsWhileMicroWritesArePending := by
  refine ⟨fun s a q hm hq hsize hoff hp => ?_, fun s t a q hq hp h => ?_, fun s late hm hr => ?_⟩
  · exact step_of_held_access hm hq ((admitted_iff a).mpr ⟨hsize, hoff⟩) hp
  · rw [← hq]
    exact step_hostQ_of_pending hp h
  · exact step_of_running_port hm hr

end Sys2Proof.Machine
end

section
/-! Proofs about the encoding family: the arm each opcode selects (30_encoding R101), and the write that runs it. -/

namespace Sys2Proof

/-! ### Decode, an equation per arm -/

theorem decodeWord_of_op_nop {w : Word} (h : fieldOp w = 0x0#4) : decodeWord w = .nop := by
  simp [decodeWord, h]

theorem decodeWord_of_op_init {w : Word} (h : fieldOp w = 0x1#4) : decodeWord w = .init := by
  simp [decodeWord, h]

theorem decodeWord_of_op_enable {w : Word} (h : fieldOp w = 0x2#4) : decodeWord w = .enable := by
  simp [decodeWord, h]

theorem decodeWord_of_op_disable {w : Word} (h : fieldOp w = 0x3#4) : decodeWord w = .disable := by
  simp [decodeWord, h]

theorem decodeWord_of_op_setColor {w : Word} (h : fieldOp w = 0x4#4) :
    decodeWord w = .setColor (fieldPix w) (fieldR w) (fieldG w) (fieldB w) := by
  simp [decodeWord, h]

theorem decodeWord_of_op_setAll {w : Word} (h : fieldOp w = 0x5#4) :
    decodeWord w = .setAll (fieldR w) (fieldG w) (fieldB w) := by
  simp [decodeWord, h]

theorem decodeWord_of_op_clrStatus {w : Word} (h : fieldOp w = 0x6#4) :
    decodeWord w = .clrStatus (fieldMask w) := by
  simp [decodeWord, h]

theorem decodeWord_of_op_reserved7 {w : Word} (h : fieldOp w = 0x7#4) : decodeWord w = .reserved7 := by
  simp [decodeWord, h]

/-- The last arm takes every opcode the eight arms above it do not name, and keeps it. -/
theorem decodeWord_of_op_reserved8F {w : Word} (h : 8 ≤ (fieldOp w).toNat) :
    decodeWord w = .reserved8F (fieldOp w) := by
  unfold decodeWord
  split
  case h_9 => rfl
  all_goals
    rename_i hop
    rw [hop] at h
    exact absurd h (by decide)

end Sys2Proof

namespace Sys2Proof.Machine

/-! ### The write of a command word -/

theorem cmdWrite_admitted (w : Word) : (cmdWrite w).admitted = true := rfl

@[simp] theorem hostAccess_cmdWrite (w : Word) (s : State) : hostAccess (cmdWrite w) s = exec (decodeWord w) s := rfl

/-- A command word presented first, with nothing pending to hold it, is decoded and run (20_memory R74). -/
theorem step_of_cmdWrite {s : State} {w : Word} {q : List HostAccess} (hm : nextMove s = .host)
    (hq : s.hostQ = cmdWrite w :: q) (hp : s.pending = []) :
    step s = exec (decodeWord w) { takeMove s with hostQ := q } := by
  rw [step_of_admitted_access hm hq (cmdWrite_admitted w) hp, hostAccess_cmdWrite]

/-- Settles O3: the performed write of CMD, and decode's equation for each arm. -/
theorem decodeSelectsTheArmOfTheOpcode : Obligations.DecodeSelectsTheArmOfTheOpcode :=
  ⟨fun _ _ _ hm hq hp => step_of_cmdWrite hm hq hp,
    fun _ => ⟨decodeWord_of_op_nop, decodeWord_of_op_init, decodeWord_of_op_enable, decodeWord_of_op_disable,
      decodeWord_of_op_setColor, decodeWord_of_op_setAll, decodeWord_of_op_clrStatus, decodeWord_of_op_reserved7,
      decodeWord_of_op_reserved8F⟩⟩

end Sys2Proof.Machine
end

section
/-! Proofs about the gamma ROM family: the table as a rounded curve, and the cells of the drive ROM
(40_gamma_rom R131, R133). -/

namespace Sys2Proof.Machine

/-! ### The gamma table (R131) -/

/-- Sixteen rows of sixteen entries. -/
theorem gammaTable_length : gammaTable.length = 256 := by
  simp only [gammaTable, List.length_append]
  rfl

/-- Below `g + 1/2`: with `x = 255 (l / 255)^2.8`, this is `x^5 < (g + 1/2)^5` times `32 * 255^9`. -/
theorem curve_lt_gamma_succ_half : ∀ l : Byte, 32 * l.toNat ^ 14 < (2 * gamma l + 1) ^ 5 * 255 ^ 9 := by decide

/-- From `g - 1/2` up, which says nothing where `g = 0`. -/
theorem gamma_pred_half_le_curve :
    ∀ l : Byte, gamma l = 0 ∨ (2 * gamma l - 1) ^ 5 * 255 ^ 9 ≤ 32 * l.toNat ^ 14 := by decide

/-- The curve grows with `l`, so its rounding does: were the entry at `l` the greater one, its lower half-step would
stand at or above the upper half-step of the entry at `m`, and the curve at `l` above the curve at `m`. -/
theorem gamma_mono {l m : Byte} (hlm : l.toNat ≤ m.toNat) : gamma l ≤ gamma m := by
  by_contra! hgt
  obtain hzero | hlow := gamma_pred_half_le_curve l
  · omega
  · have hcontra : 32 * m.toNat ^ 14 < 32 * m.toNat ^ 14 :=
      calc 32 * m.toNat ^ 14
        _ < (2 * gamma m + 1) ^ 5 * 255 ^ 9 := curve_lt_gamma_succ_half m
        _ ≤ (2 * gamma l - 1) ^ 5 * 255 ^ 9 := by
          have hstep : 2 * gamma m + 1 ≤ 2 * gamma l - 1 := by omega
          gcongr
        _ ≤ 32 * l.toNat ^ 14 := hlow
        _ ≤ 32 * m.toNat ^ 14 := by gcongr
    exact lt_irrefl _ hcontra

/-- Settles O5: each entry lies in its half-open interval, and monotony follows from that. -/
theorem gammaTableIsTheRoundedCurve : Obligations.GammaTableIsTheRoundedCurve := by
  refine ⟨gammaTable_length, fun l => ⟨curve_lt_gamma_succ_half l, gamma_pred_half_le_curve l⟩, fun l hl => ?_⟩
  have hsucc : l.toNat ≤ (l + 1).toNat := by bv_omega
  exact gamma_mono hsucc

/-! ### The drive ROM (R133) -/

/-- The code 3 names no channel (R7), and its cells hold the off level. -/
theorem romCell_unusedCode (bd : Build) (l : Byte) : romCell bd (3#2 ++ l) = 255 := by
  have hcode : (3#2 ++ l : BitVec 10).extractLsb' 8 2 = 3#2 := by
    rw [BitVec.extractLsb'_append_eq_of_le (Nat.le_refl 8), Nat.sub_self, BitVec.extractLsb'_eq_self]
  unfold romCell
  rw [hcode]
  rfl

/-- Input 0 is off under every divisor. -/
theorem rom_zero (bd : Build) (c : Channel) : rom bd c 0 = 255 :=
  BitVec.eq_of_toNat_eq (by rw [rom_toNat, gamma_zero, Nat.zero_div]; rfl)

theorem rom_toNat_of_divisor_one {bd : Build} {c : Channel} (hd : divisor bd c = 1) (l : Byte) :
    (rom bd c l).toNat = 255 - gamma l := by
  rw [rom_toNat, hd, Nat.div_one]

theorem gamma_128 : gamma 128 = 37 := by decide

/-- Settles O6: the cells of the codes 0 to 2 are the ROM at a channel, whose value is `rom_toNat`. -/
theorem romHoldsInvertedScaledGamma : Obligations.RomHoldsInvertedScaledGamma := by
  refine ⟨fun bd l => ⟨rom_toNat bd .red l, rom_toNat bd .green l, rom_toNat bd .blue l, romCell_unusedCode bd l⟩,
    rom_zero, fun _ _ l hd => rom_toNat_of_divisor_one hd l, fun bd hd => BitVec.eq_of_toNat_eq ?_⟩
  calc (rom bd .blue 128).toNat
    _ = 255 - gamma 128 := rom_toNat_of_divisor_one hd 128
    _ = 218 := by rw [gamma_128]

end Sys2Proof.Machine
end

section
/-! Proofs about the colour-store family: the command engine's micro-writes, one step at a time or all at once, and
the two colour commands that hand them over (41_color_store R150 to R153, R157). -/

namespace Sys2Proof.Machine

/-! ### Micro-writes one after another -/

theorem writeCells_append (ms ns : List MicroWrite) (s : State) :
    writeCells (ms ++ ns) s = writeCells ns (writeCells ms s) :=
  List.foldl_append

/-- A cell no micro-write names keeps its value. -/
theorem cell_writeCells_of_notMem {ms : List MicroWrite} {p : Pixel} {c : Channel} (s : State)
    (h : (p, c) ∉ ms.map fun m => (m.pix, m.ch)) : cell (writeCells ms s) p c = cell s p c := by
  induction ms generalizing s with
  | nil => rfl
  | cons m ms ih =>
    obtain ⟨hm, hms⟩ : (p, c) ≠ (m.pix, m.ch) ∧ (p, c) ∉ ms.map fun m => (m.pix, m.ch) := by
      simpa only [List.map_cons, List.mem_cons, not_or] using h
    rw [writeCells_cons, ih _ hms, cell_writeCell_of_ne _ _ _ _ hm.symm]

/-- Where the cells named are distinct, each ends with the value written to it: no later micro-write names it. -/
theorem cell_writeCells_of_mem {ms : List MicroWrite} {m : MicroWrite} (s : State)
    (hd : (ms.map fun m => (m.pix, m.ch)).Nodup) (hm : m ∈ ms) : cell (writeCells ms s) m.pix m.ch = m.val := by
  induction ms generalizing s with
  | nil => cases hm
  | cons n ms ih =>
    obtain ⟨hn, hd⟩ := List.nodup_cons.mp hd
    rw [writeCells_cons]
    cases hm with
    | head => rw [cell_writeCells_of_notMem _ hn, cell_writeCell, if_pos ⟨rfl, rfl⟩]
    | tail _ hm => exact ih _ hd hm

/-! ### The command engine accepts a micro-write set (R153) -/

theorem submit_of_atomic {bd : Build} (h : bd.atomic = true) (ms : List MicroWrite) (s : State) :
    submit bd ms s = writeCells ms s :=
  if_pos h

theorem submit_of_not_atomic {bd : Build} (h : bd.atomic = false) (ms : List MicroWrite) (s : State) :
    submit bd ms s = { s with pending := ms } := by
  simp [submit, h]

/-! ### One ENGINE step (R153) -/

@[simp] theorem runMove_engine (k : Nat) (s : State) : runMove (.engine k) s = .next (engineStep k s) := rfl

/-- The choice that counts off the micro-writes before `m` performs `m`, and takes it out of the set. -/
theorem engineStep_of_pending_eq {s : State} {before after : List MicroWrite} {m : MicroWrite} {k : Nat}
    (hs : s.pending = before ++ m :: after) (hk : k % s.pending.length = before.length) :
    engineStep k s = { s with
      store := s.store.set m.pix ((s.store[m.pix]).put m.ch m.val), pending := before ++ after } := by
  have hm : s.pending[before.length]? = some m := by simp [hs]
  have herase : s.pending.eraseIdx before.length = before ++ after := by
    simp [hs, List.eraseIdx_append_of_length_le]
  simp only [engineStep, hk, hm, herase]
  rfl

/-- Every choice counts off some of the pending micro-writes, and another stands behind these. -/
theorem pending_split (k : Nat) {s : State} (h : s.pending ≠ []) :
    ∃ before m after, s.pending = before ++ m :: after ∧ k % s.pending.length = before.length := by
  have hk : k % s.pending.length < s.pending.length := Nat.mod_lt _ (List.length_pos_iff.mpr h)
  refine ⟨s.pending.take (k % s.pending.length), s.pending[k % s.pending.length],
    s.pending.drop (k % s.pending.length + 1), ?_, (List.length_take_of_le hk.le).symm⟩
  rw [List.cons_getElem_drop_succ, List.take_append_drop]

/-- The micro-write at any place of the pending set is some choice's. -/
theorem before_length_mod_pending_length {s : State} {before after : List MicroWrite} {m : MicroWrite}
    (hs : s.pending = before ++ m :: after) : before.length % s.pending.length = before.length :=
  Nat.mod_eq_of_lt (by simp [hs])

/-- Settles O30: the two kinds of build, then the ENGINE's choice as a place in the pending set, read both ways. -/
theorem engineWritesAnyOnePendingCell : Obligations.EngineWritesAnyOnePendingCell := by
  refine ⟨fun bd ms s => ⟨fun ha hd => ?_, fun ha => submit_of_not_atomic ha ms s⟩, fun s k hm hp => ?_,
    fun s before after m hs => ⟨before.length, ?_⟩⟩
  · rw [submit_of_atomic ha]
    exact ⟨fun m hm => cell_writeCells_of_mem s hd hm, fun p c h => cell_writeCells_of_notMem s h,
      writeCells_only_store ms s⟩
  · obtain ⟨before, m, after, hs, hk⟩ := pending_split k hp
    refine ⟨before, m, after, hs, ?_⟩
    rw [← takeMove_pending s] at hs hk
    rw [step_eq, hm, runMove_engine, engineStep_of_pending_eq hs hk, takeMove_store]
  · rw [runMove_engine, engineStep_of_pending_eq hs (before_length_mod_pending_length hs)]

/-! ### The drive levels of a build's divisors (40_gamma_rom R133) -/

theorem rom_of_divisor {bd : Build} {c : Channel} {d : Nat} (hd : divisor bd c = d) (l : Byte) :
    rom bd c l = BitVec.ofNat 8 (255 - gamma l / d) := by
  rw [rom_eq_driveLevel, driveLevel, hd]

theorem gamma_255 : gamma 255 = 255 := by decide

/-! ### SET_COLOR (R151, R152) -/

theorem pixelOfField?_of_toNat_eq {pix : BitVec 4} {p : Pixel} (h : pix.toNat = p.val) :
    pixelOfField? pix = some p := by
  simp [pixelOfField?, h]

theorem pixelOfField?_of_ge {pix : BitVec 4} (h : 6 ≤ pix.toNat) : pixelOfField? pix = none :=
  dif_neg (Nat.not_lt.mpr h)

theorem exec_setColor (pix : BitVec 4) (r g b : Byte) (s : State) :
    exec (.setColor pix r g b) s = .next (setColor Config.build pix r g b s) := rfl

theorem setColor_of_toNat_eq {pix : BitVec 4} {p : Pixel} (h : pix.toNat = p.val)
    (bd : Build) (r g b : Byte) (s : State) :
    setColor bd pix r g b s = submit bd (pixelWrites bd p r g b) s := by
  simp [setColor, pixelOfField?_of_toNat_eq h]

theorem setColor_of_ge {pix : BitVec 4} (h : 6 ≤ pix.toNat) (bd : Build) (r g b : Byte) (s : State) :
    setColor bd pix r g b s = { s with errPixel := true } := by
  simp [setColor, pixelOfField?_of_ge h, recordCondition]

/-- The three levels of one colour under a build (40_gamma_rom R130). -/
def romTriple (bd : Build) (r g b : Byte) : Triple := ⟨rom bd .red r, rom bd .green g, rom bd .blue b⟩

/-- The three micro-writes of a pixel write its whole triple. -/
theorem writeCells_pixelWrites (bd : Build) (p : Pixel) (r g b : Byte) (s : State) :
    writeCells (pixelWrites bd p r g b) s = { s with store := s.store.set p (romTriple bd r g b) } := by
  simp [pixelWrites, writeCell, romTriple]

/-- Settles O14: decode's arm, then the pixel in range on both kinds of build, the pixel out of range, and the levels. -/
theorem setColorStoresTheMappedLevels : Obligations.SetColorStoresTheMappedLevels := by
  refine ⟨fun w => decodeWord_of_op_setColor, exec_setColor,
    fun bd pix p r g b s hp => ⟨fun ha => ?_, fun ha => ?_⟩, fun pix r g b s hp => ?_, rom_zero,
    fun bd hr _ hb => ⟨?_, rom_zero bd .green, ?_⟩⟩
  · rw [setColor_of_toNat_eq hp, submit_of_not_atomic ha, pixelWrites]
  · rw [setColor_of_toNat_eq hp, submit_of_atomic ha, writeCells_pixelWrites, romTriple]
  · rw [exec_setColor, setColor_of_ge hp]
  · rw [rom_of_divisor hr, gamma_255]
    rfl
  · rw [rom_of_divisor hb, gamma_128]
    rfl

/-! ### SET_ALL (R157) -/

theorem exec_setAll (r g b : Byte) (s : State) :
    exec (.setAll r g b) s = .next (setAll Config.build r g b s) := rfl

theorem pixels_eq_finRange : pixels = List.finRange 6 := by decide

theorem mem_pixels (p : Pixel) : p ∈ pixels := pixels_eq_finRange ▸ List.mem_finRange p

/-- Writing one colour to a list of pixels gives each of them its triple, and leaves the other pixels alone. -/
theorem writeCells_flatMap_pixelWrites_store (bd : Build) (ps : List Pixel) (r g b : Byte) (s : State) (q : Pixel) :
    (writeCells (ps.flatMap fun p => pixelWrites bd p r g b) s).store[q] =
      if q ∈ ps then romTriple bd r g b else s.store[q] := by
  induction ps generalizing s with
  | nil => simp
  | cons p ps ih =>
    rw [List.flatMap_cons, writeCells_append, writeCells_pixelWrites, ih]
    by_cases hps : q ∈ ps
    · simp [hps]
    · by_cases hp : q = p
      · simp [hp]
      · have hval : p.val ≠ q.val := fun h => hp (Fin.ext h.symm)
        simp [hps, hp, hval]

/-- The eighteen micro-writes write every pixel's triple. -/
theorem writeCells_allWrites (bd : Build) (r g b : Byte) (s : State) :
    writeCells (allWrites bd r g b) s = { s with store := Vector.replicate 6 (romTriple bd r g b) } := by
  have hstore : (writeCells (allWrites bd r g b) s).store = Vector.replicate 6 (romTriple bd r g b) := by
    ext1 i hi
    rw [Vector.getElem_replicate]
    exact (writeCells_flatMap_pixelWrites_store bd pixels r g b s ⟨i, hi⟩).trans (if_pos (mem_pixels _))
  rw [writeCells_only_store, hstore]

/-- Settles O15: decode's arm, then the whole store on both kinds of build, and the levels. -/
theorem setAllStoresOneColourEverywhere : Obligations.SetAllStoresOneColourEverywhere := by
  refine ⟨fun w => decodeWord_of_op_setAll, exec_setAll, fun bd r g b s => ⟨fun ha => ?_, fun ha => ?_⟩, rom_zero,
    fun bd hr hg hb => ⟨?_, ?_, ?_⟩⟩
  · rw [setAll, submit_of_not_atomic ha, allWrites, pixels_eq_finRange]
    rfl
  · rw [setAll, submit_of_atomic ha, writeCells_allWrites, romTriple]
  · rw [rom_of_divisor hr, gamma_255]
    rfl
  · rw [rom_of_divisor hg, gamma_255]
    rfl
  · rw [rom_of_divisor hb, gamma_255]
    rfl

end Sys2Proof.Machine
end

section
/-! Proofs about the scan scheduler: the two cases of Advance, the tick of each phase (42 R180 to R190), and what a
boundary does beside its tick (42 R171, R173, R178, R193). -/

namespace Sys2Proof.Machine

/-! ### Frames of the operations a boundary is made of -/

@[simp] theorem portAll_framePend (as : List PortAction) (s : State) : (portAll as s).framePend = s.framePend := by
  rw [portAll_only_lines]

@[simp] theorem portAll_frameCnt (as : List PortAction) (s : State) : (portAll as s).frameCnt = s.frameCnt := by
  rw [portAll_only_lines]

@[simp] theorem portAll_ovrCnt (as : List PortAction) (s : State) : (portAll as s).ovrCnt = s.ovrCnt := by
  rw [portAll_only_lines]

@[simp] theorem overrunRecord_framePend (late : Bool) (s : State) :
    (overrunRecord late s).framePend = s.framePend := by
  cases late <;> simp

@[simp] theorem overrunRecord_frameCnt (late : Bool) (s : State) :
    (overrunRecord late s).frameCnt = s.frameCnt := by
  cases late <;> simp

@[simp] theorem overrunRecord_out (late : Bool) (s : State) : (overrunRecord late s).out = s.out := by
  cases late <;> simp

@[simp] theorem advance_ovrCnt (bd : Build) (i : Pixel) (s : State) : (advance bd i s).ovrCnt = s.ovrCnt := by
  rw [advance_only_scan_frame]

/-! ### Advance (R178) -/

theorem fieldOfPixel_of_toNat_eq {v : BitVec 3} {i : Pixel} (h : v.toNat = i.val) : fieldOfPixel i = v := by
  rw [fieldOfPixel, ← h, BitVec.ofNat_toNat, BitVec.setWidth_eq]

theorem fieldOfPixel_nextPixel :
    ∀ i : Pixel, fieldOfPixel (nextPixel i) = if i = 5 then 0 else fieldOfPixel i + 1 := by decide

theorem advance_of_phase_lt {bd : Build} {s : State} (hf : s.phase.toNat < phaseCount bd - 1) (i : Pixel) :
    advance bd i s = { s with phase := s.phase + 1 } :=
  if_pos hf

/-- After the last phase: phase 0 of the next pixel, and the end of the frame after pixel 5 (R178, R193). -/
theorem advance_of_last_phase {bd : Build} {s : State} {i : Pixel} (hc : s.cur.toNat = i.val)
    (hf : s.phase.toNat = phaseCount bd - 1) :
    advance bd i s = { s with
      cur := if i = 5 then 0 else s.cur + 1, phase := 0, prev := s.cur,
      framePend := s.framePend || i == 5, frameCnt := if i = 5 then s.frameCnt + 1 else s.frameCnt,
      out := s.out ++ if i = 5 then [.frame] else [] } := by
  rw [advance, if_neg hf.not_lt, fieldOfPixel_nextPixel, fieldOfPixel_of_toNat_eq hc]
  by_cases h5 : i = 5
  · simp [h5, setScan, frameComplete, recordCondition, emit, wrapInc]
  · simp [h5, setScan]

/-- Advance shows nothing but the strobe at the end of a frame. -/
theorem advance_out (bd : Build) (i : Pixel) (s : State) :
    (advance bd i s).out =
      s.out ++ if s.phase.toNat < phaseCount bd - 1 then [] else if i = 5 then [.frame] else [] := by
  unfold advance
  by_cases hf : s.phase.toNat < phaseCount bd - 1
  · simp [hf]
  · by_cases h5 : i = 5 <;> simp [hf, h5, frameComplete]

/-! ### The overrun record of a late boundary (R173) -/

theorem port_recordCondition (a : PortAction) (c : Condition) (s : State) :
    port a (recordCondition c s) = recordCondition c (port a s) := by
  cases a <;> cases c <;> rfl

/-- Port actions neither see nor change what a condition records. -/
theorem portAll_recordCondition (as : List PortAction) (c : Condition) (s : State) :
    portAll as (recordCondition c s) = recordCondition c (portAll as s) := by
  induction as generalizing s with
  | nil => rfl
  | cons a as ih => rw [portAll_cons, portAll_cons, port_recordCondition, ih]

/-- Advance neither sees nor changes what an overrun records. -/
theorem advance_recordCondition_overrun (bd : Build) (i : Pixel) (s : State) :
    advance bd i (recordCondition .overrun s) = recordCondition .overrun (advance bd i s) := by
  unfold advance
  rw [recordCondition_phase]
  split
  · rfl
  · split <;> rfl

/-- Settles O42: the overrun record commutes with everything the tick does. -/
theorem lateBoundaryOnlyRecordsTheOverrun : Obligations.LateBoundaryOnlyRecordsTheOverrun := by
  intro bd s t h
  obtain ⟨i, as, hc, hp, ha, ht⟩ := (boundary_next _ _ _ _).mp h
  have hcnt : t.ovrCnt = s.ovrCnt := by simp [ht]
  refine (boundary_next _ _ _ _).mpr ⟨i, as, hc, hp, ha, ?_⟩
  calc { t with ovr := true, ovrCnt := if s.ovrCnt = 0xFFFF then 0xFFFF else s.ovrCnt + 1 }
      = recordCondition .overrun t := by rw [← hcnt]; rfl
    _ = advance bd i (portAll as (overrunRecord true (latch s))) := by
      rw [ht, overrunRecord_true, portAll_recordCondition, advance_recordCondition_overrun, overrunRecord_false]

/-! ### PORT's move while the block is disabled (R171) -/

theorem step_of_stopped_port {s : State} {late : Bool} (hm : nextMove s = .port late) (hr : s.run = false) :
    step s = .next (takeMove s) := by
  simp [step_eq, hm, runMove, portStep, hr]

/-- Settles O43: PORT's move with the run bit clear, and with it set. -/
theorem noBoundaryWhileDisabled : Obligations.NoBoundaryWhileDisabled :=
  fun _ _ hm => ⟨step_of_stopped_port hm, step_of_running_port hm⟩

/-! ### The tick from a legal scan position (R174) -/

theorem tick_of_phase_lt {bd : Build} {s : State} {i : Pixel} {as : List PortAction} (hc : s.cur.toNat = i.val)
    (hp : s.prev.toNat < 6) (ha : phaseActions bd s.phase i s.store = some as)
    (hf : s.phase.toNat < phaseCount bd - 1) :
    tick bd s = .next { portAll as s with phase := s.phase + 1 } := by
  refine (tick_next _ _ _).mpr ⟨i, as, (scanPixel?_eq_some s i).mpr ⟨hc, hp⟩, ha, ?_⟩
  rw [advance_of_phase_lt (by simpa using hf), portAll_phase]

theorem tick_of_last_phase {bd : Build} {s : State} {i : Pixel} {as : List PortAction} (hc : s.cur.toNat = i.val)
    (hp : s.prev.toNat < 6) (ha : phaseActions bd s.phase i s.store = some as)
    (hf : s.phase.toNat = phaseCount bd - 1) :
    tick bd s = .next { portAll as s with
      cur := if i = 5 then 0 else s.cur + 1, phase := 0, prev := s.cur,
      framePend := s.framePend || i == 5, frameCnt := if i = 5 then s.frameCnt + 1 else s.frameCnt,
      out := s.out ++ as.map .port ++ if i = 5 then [.frame] else [] } := by
  refine (tick_next _ _ _).mpr ⟨i, as, (scanPixel?_eq_some s i).mpr ⟨hc, hp⟩, ha, ?_⟩
  rw [advance_of_last_phase (by simpa using hc) (by simpa using hf)]
  simp

/-! ### The two policies -/

theorem tick_of_fivePhase_lt {bd : Build} {s : State} {i : Pixel} {f : BitVec 3} {as : List PortAction}
    (hpol : bd.policy = .fivePhase) (hc : s.cur.toNat = i.val) (hp : s.prev.toNat < 6) (hs : s.phase = f)
    (hf : f.toNat < 4) (ha : fivePhase f i s.store = some as) :
    tick bd s = .next { portAll as s with phase := f + 1 } := by
  subst hs
  exact tick_of_phase_lt hc hp (by simpa [phaseActions, hpol] using ha) (by simpa [phaseCount, hpol] using hf)

theorem tick_of_threeStage_lt {bd : Build} {s : State} {i : Pixel} {f : BitVec 3} {as : List PortAction}
    (hpol : bd.policy = .threeStage) (hc : s.cur.toNat = i.val) (hp : s.prev.toNat < 6) (hs : s.phase = f)
    (hf : f.toNat < 2) (ha : threeStage f i s.store = some as) :
    tick bd s = .next { portAll as s with phase := f + 1 } := by
  subst hs
  exact tick_of_phase_lt hc hp (by simpa [phaseActions, hpol] using ha) (by simpa [phaseCount, hpol] using hf)

/-! ### The actions phases are made of, and their traces -/

theorem port_setBoost (on : Bool) (s : State) :
    port (.boost on) s = { s with boost := on, out := s.out ++ [.port (.boost on)] } := rfl

/-- With every other line inactive, activating an anode leaves that one line active. -/
theorem putAnode_zero_true (i : Pixel) : putAnode 0 i true = 1#6 <<< i.val := by
  simp [putAnode]

theorem port_activateAnode (i : Pixel) (s : State) (h : s.anode = 0) :
    port (.anodeSet i true) s = { s with anode := 1#6 <<< i.val, out := s.out ++ [.port (.anodeSet i true)] } := by
  rw [← putAnode_zero_true, ← h]
  rfl

theorem map_port_allAnodesOff : allAnodesOff.map Output.port = anodesOffTrace := rfl

theorem map_port_compareAll (r g b : Byte) : (compareAll r g b).map Output.port = compareTrace r g b := rfl

theorem map_port_boostIfBlue (i : Pixel) (d : Store) :
    (boostIfBlue i d).map Output.port = if (d[i]).b = 255 then [] else [.port (.boost true)] := by
  unfold boostIfBlue
  split <;> rfl

/-! ### FIVE_PHASE (R180 to R184) -/

/-- Settles O32: all anodes off, the boost decision, three compare writes. -/
theorem preChargeTick : Obligations.PreChargeTick := by
  intro bd s i hpol hc hp hs
  rw [tick_of_fivePhase_lt hpol hc hp hs (by decide) rfl, preCharge, portAll_append, portAll_append,
    portAll_allAnodesOff, portAll_boostIfBlue, portAll_compareAll, map_port_allAnodesOff, map_port_boostIfBlue,
    map_port_compareAll]
  rfl

/-- Settles O33: the boost sink off, three compare writes. -/
theorem settleTick : Obligations.SettleTick := by
  intro bd s i hpol hc hp hs
  rw [tick_of_fivePhase_lt hpol hc hp hs (by decide) rfl, settle, portAll_cons, port_setBoost, portAll_compareAll,
    map_port_compareAll]
  rfl

/-- Settles O34: the boost sink off, all anodes off, the pixel's anode on, three compare writes. -/
theorem showBlueTick : Obligations.ShowBlueTick := by
  intro bd s i hpol hc hp hs
  rw [tick_of_fivePhase_lt hpol hc hp hs (by decide) rfl, showBlue, List.cons_append, portAll_cons, port_setBoost,
    portAll_append, portAll_allAnodesOff, portAll_cons, port_activateAnode i _ rfl, portAll_compareAll,
    map_port_allAnodesOff, map_port_compareAll]
  rfl

/-- Settles O35: three compare writes. -/
theorem showRedTick : Obligations.ShowRedTick := by
  intro bd s i hpol hc hp hs
  rw [tick_of_fivePhase_lt hpol hc hp hs (by decide) rfl, showRed, portAll_compareAll, map_port_compareAll]
  rfl

/-- Settles O36: three compare writes, then the advance after the last phase. -/
theorem showGreenTick : Obligations.ShowGreenTick := by
  intro bd s i hpol hc hp hs
  have ha : phaseActions bd s.phase i s.store = some showGreen := by simp [phaseActions, hpol, hs, fivePhase]
  rw [tick_of_last_phase hc hp ha (by simp [phaseCount, hpol, hs]), showGreen, portAll_compareAll,
    map_port_compareAll]

/-! ### THREE_STAGE (R188 to R190) -/

/-- Settles O37: all anodes off, the boost decision. -/
theorem deactivateAndDecideTick : Obligations.DeactivateAndDecideTick := by
  intro bd s i hpol hc hp hs
  rw [tick_of_threeStage_lt hpol hc hp hs (by decide) rfl, deactivateAndDecide, portAll_append,
    portAll_allAnodesOff, portAll_boostIfBlue, map_port_allAnodesOff, map_port_boostIfBlue]
  rfl

/-- Settles O38: the boost sink off, all anodes off, the pixel's anode on. -/
theorem activateCurrentTick : Obligations.ActivateCurrentTick := by
  intro bd s i hpol hc hp hs
  rw [tick_of_threeStage_lt hpol hc hp hs (by decide) rfl, activateCurrent, List.cons_append, portAll_cons,
    port_setBoost, portAll_append, portAll_allAnodesOff, portAll_cons, port_activateAnode i _ rfl, portAll_nil,
    map_port_allAnodesOff]
  rfl

/-- Settles O39: three compare writes with the next pixel's levels, then the advance after the last stage. -/
theorem preloadNextTick : Obligations.PreloadNextTick := by
  intro bd s i n hpol hc hp hs hn
  obtain rfl : n = nextPixel i := Fin.ext hn
  have ha : phaseActions bd s.phase i s.store = some (preloadNext i s.store) := by
    simp [phaseActions, hpol, hs, threeStage]
  rw [tick_of_last_phase hc hp ha (by simp [phaseCount, hpol, hs]), preloadNext, portAll_compareAll,
    map_port_compareAll]

/-! ### The advance of a boundary (R178, R193) -/

/-- Port actions are not the FRAME strobe. -/
@[simp] theorem count_frame_map_port (as : List PortAction) : (as.map Output.port).count .frame = 0 := by
  simp [List.count_eq_zero]

theorem phaseCount_le (bd : Build) : phaseCount bd ≤ 5 := by
  unfold phaseCount
  split <;> decide

/-- A boundary before the last phase goes to the next phase and ends no frame. -/
theorem boundary_of_phase_lt {bd : Build} {late : Bool} {s t : State} (h : boundary bd late s = .next t)
    (hf : s.phase.toNat < phaseCount bd - 1) :
    t.phase.toNat = s.phase.toNat + 1 ∧ t.cur = s.cur ∧ t.prev = s.prev ∧
      t.framePend = s.framePend ∧ t.frameCnt = s.frameCnt ∧ t.out.count .frame = s.out.count .frame := by
  obtain ⟨i, as, -, -, -, rfl⟩ := (boundary_next _ _ _ _).mp h
  have hlt : s.phase.toNat + 1 < 8 := by
    have := phaseCount_le bd
    omega
  rw [advance_of_phase_lt (by simpa using hf)]
  simpa using hlt

/-- A boundary at the last phase goes to the next pixel, and the frame ends with pixel 5. -/
theorem boundary_of_last_phase {bd : Build} {late : Bool} {s t : State} (h : boundary bd late s = .next t)
    (hf : s.phase.toNat = phaseCount bd - 1) :
    t.phase = 0 ∧ t.prev = s.cur ∧ t.cur.toNat = (s.cur.toNat + 1) % 6 ∧
      (s.cur = 5 → t.framePend = true ∧ t.frameCnt = s.frameCnt + 1 ∧
        t.out.count .frame = s.out.count .frame + 1) ∧
      (s.cur ≠ 5 → t.framePend = s.framePend ∧ t.frameCnt = s.frameCnt ∧
        t.out.count .frame = s.out.count .frame) := by
  obtain ⟨i, as, hc, -, -, rfl⟩ := (boundary_next _ _ _ _).mp h
  have hi : i = 5 ↔ s.cur = 5#3 := by rw [← BitVec.toNat_inj, hc, Fin.ext_iff]; rfl
  rw [advance_of_last_phase (by simpa using hc) (by simpa using hf)]
  by_cases h5 : s.cur = 5#3
  · simp [hi, h5]
  · have hne : s.cur.toNat ≠ 5 := fun e => h5 (BitVec.eq_of_toNat_eq e)
    have hlt : s.cur.toNat < 6 := hc ▸ i.isLt
    have hmod : (s.cur.toNat + 1) % 8 = (s.cur.toNat + 1) % 6 := by omega
    simpa [hi, h5] using hmod

/-- What a boundary shows does not depend on PREV. -/
theorem boundary_with_prev {bd : Build} {late : Bool} {s t : State} (h : boundary bd late s = .next t)
    {p : BitVec 3} (hp : p.toNat < 6) :
    ∃ u, boundary bd late { s with prev := p } = .next u ∧ u.out = t.out := by
  obtain ⟨i, as, hc, -, ha, rfl⟩ := (boundary_next _ _ _ _).mp h
  exact ⟨_, (boundary_next _ _ _ _).mpr ⟨i, as, hc, hp, ha, rfl⟩, by simp [advance_out]⟩

/-! ### Who writes PREV -/

@[simp] theorem submit_prev (bd : Build) (ms : List MicroWrite) (s : State) : (submit bd ms s).prev = s.prev := by
  rw [submit_only_store_pending]

@[simp] theorem setColor_prev (bd : Build) (pix : BitVec 4) (r g b : Byte) (s : State) :
    (setColor bd pix r g b s).prev = s.prev := by
  unfold setColor
  split <;> simp

@[simp] theorem setAll_prev (bd : Build) (r g b : Byte) (s : State) : (setAll bd r g b s).prev = s.prev :=
  submit_prev ..

@[simp] theorem engineStep_prev (k : Nat) (s : State) : (engineStep k s).prev = s.prev := by
  unfold engineStep
  split <;> rfl

/-- Of the commands, ENABLE and INIT alone write PREV. -/
theorem exec_prev {i : Instr} {s t : State} (h : exec i s = .next t) :
    t.prev = s.prev ∨ i = .enable ∨ i = .init := by
  cases i <;> cases h <;> simp

/-- A step changes PREV only by a boundary, ENABLE or INIT. -/
theorem step_prev {s t : State} (h : step s = .next t) :
    t.prev = s.prev ∨ (boundaryOfStep s).isSome = true ∨ commandOfStep s = some .enable ∨
      commandOfStep s = some .init := by
  rcases step_cases h with ⟨i, q, hc, -, he⟩ | ⟨-, -, hq⟩ | ⟨late, -, hb, -⟩
  · rcases exec_prev he with hprev | rfl | rfl
    · exact .inl (by simpa using hprev)
    · exact .inr (.inr (.inl hc))
    · exact .inr (.inr (.inr hc))
  · refine .inl ?_
    rcases hq with ⟨v, q, -, -, rfl⟩ | ⟨v, q, -, -, rfl⟩ | ⟨q, rfl⟩ | ⟨k, -, rfl⟩ <;> simp
  · exact .inr (.inl (by simp [hb]))

/-- Settles O40: the two cases of the advance, the boundary with another PREV, and the writers of PREV. -/
theorem advanceAndFrameAccounting : Obligations.AdvanceAndFrameAccounting :=
  ⟨fun _ _ _ _ h => ⟨boundary_of_phase_lt h, boundary_of_last_phase h, fun _ => boundary_with_prev h⟩,
    fun _ _ h hne => (step_prev h).resolve_left hne⟩

end Sys2Proof.Machine
end

section
/-! Proofs about the lifecycle family: INIT, ENABLE and DISABLE as state equations (43_lifecycle R220, R222, R226), and
the first boundary after ENABLE. -/

namespace Sys2Proof.Machine

/-! ### ENABLE (R222) -/

/-- The actions ENABLE starts with and DISABLE ends with: every line inactive. -/
theorem portAll_enableMakeSafe (s : State) :
    portAll enableMakeSafe s = { s with
      anode := 0, boost := false, out := s.out ++ anodesOffTrace ++ [.port (.boost false)] } := by
  rw [enableMakeSafe, portAll_append, portAll_allAnodesOff, portAll_cons, port_setBoost, portAll_nil,
    map_port_allAnodesOff]

theorem portAll_enableStart (s : State) :
    portAll enableStart s = { s with
      cmpBuf := ⟨255, 255, 255⟩, run := true, out := s.out ++ compareTrace 255 255 255 ++ [.port .timersStart] } := by
  rw [enableStart, portAll_append, portAll_compareAll, map_port_compareAll]
  rfl

/-- All of ENABLE: safe lines, then the store and the scan reset, then the buffers dark and the timers running. -/
theorem enable_eq (s : State) :
    enable s = { s with
      anode := 0, boost := false, store := Vector.replicate 6 ⟨255, 255, 255⟩,
      cur := 0, phase := 0, prev := 5, cmpBuf := ⟨255, 255, 255⟩, run := true,
      out := s.out ++ anodesOffTrace ++ [.port (.boost false)] ++ compareTrace 255 255 255 ++
        [.port .timersStart] } := by
  rw [enable, portAll_enableMakeSafe, portAll_enableStart]
  rfl

theorem exec_enable (s : State) : exec .enable s = .next (enable s) := rfl

/-! ### The first boundary after ENABLE -/

/-- A boundary from a legal scan position completes, late or not (42 R175). -/
theorem boundary_completes {bd : Build} {s : State} (late : Bool) (hc : s.cur.toNat < 6)
    (hf : s.phase.toNat < phaseCount bd) (hp : s.prev.toNat < 6) : ∃ t, boundary bd late s = .next t := by
  obtain ⟨i, as, -, -, ht⟩ :=
    tick_completes bd (overrunRecord late (latch s)) (by simpa using hc) (by simpa using hf) (by simpa using hp)
  exact ⟨_, ht⟩

theorem one_lt_phaseCount (bd : Build) : 1 < phaseCount bd := by
  unfold phaseCount
  split <;> decide

/-- From the first scan position a boundary runs the tick of (cur 0, phase 0), whose advance ends at phase 1. -/
theorem boundary_of_first_position {s : State} (bd : Build) (late : Bool) (hc : s.cur = 0) (hf : s.phase = 0)
    (hp : s.prev = 5) : ∃ t, boundary bd late s = .next t ∧ t.cmpAct = s.cmpBuf ∧ t.cur = 0 ∧ t.phase = 1 := by
  have hN := one_lt_phaseCount bd
  have hf0 : s.phase.toNat = 0 := by simp [hf]
  obtain ⟨t, ht⟩ := boundary_completes (bd := bd) (s := s) late (by simp [hc]) (by omega) (by simp [hp])
  obtain ⟨hphase, hcur, -⟩ := boundary_of_phase_lt ht (by omega)
  exact ⟨t, ht, boundary_cmpAct ht, hcur.trans hc, BitVec.eq_of_toNat_eq (by rw [hphase, hf0]; rfl)⟩

/-- Settles O12: decode's arm, ENABLE's state equation, and a boundary from the position that it leaves. -/
theorem enableResetsStoreAndScan : Obligations.EnableResetsStoreAndScan := by
  refine ⟨fun w => decodeWord_of_op_enable, rfl, fun s => ?_, fun bd late s t h => ?_⟩
  · rw [exec_enable, enable_eq]
  · obtain rfl : enable s = t := Host.Outcome.next.inj h
    rw [enable_eq]
    exact boundary_of_first_position bd late rfl rfl rfl

/-! ### INIT (R220) -/

theorem exec_init (s : State) : exec .init s = .next (enable { s with initialized := true }) := rfl

/-- STATUS after INIT from reset depends on the build through its policy bit alone. -/
theorem statusWord_init_reset (bd : Build) :
    statusWord bd (enable { State.reset with initialized := true }) =
      if policyBit bd then 0x00014043 else 0x00014003 := by
  rw [enable_eq, statusWord]
  cases policyBit bd <;> rfl

/-- Settles O11: decode's arm, INIT as ENABLE of the initialized state, and STATUS of that from reset. -/
theorem initConfiguresAndEnables : Obligations.InitConfiguresAndEnables := by
  refine ⟨fun w => decodeWord_of_op_init, rfl, fun s => ?_, fun bd t hpol h => ?_⟩
  · rw [exec_init, enable_eq]
  · obtain rfl : enable { State.reset with initialized := true } = t := Host.Outcome.next.inj h
    simp [statusWord_init_reset, policyBit_eq, hpol]

/-! ### DISABLE (R226) -/

/-- DISABLE's actions are the stop of the timers, then those that ENABLE makes the lines safe with. -/
theorem disableActions_eq : disableActions = .timersStop :: enableMakeSafe := rfl

theorem exec_disable (s : State) : exec .disable s = .next (portAll disableActions s) := rfl

/-- Settles O13: decode's arm, the timers stopped, then every line made inactive. -/
theorem disableForcesEveryLineInactive : Obligations.DisableForcesEveryLineInactive := by
  refine ⟨fun w => decodeWord_of_op_disable, rfl, fun s => ?_⟩
  rw [exec_disable, disableActions_eq, portAll_cons, portAll_enableMakeSafe]
  rfl

end Sys2Proof.Machine
end

section
/-! Proofs about the status and bus family: NOP, CLR_STATUS and the reserved words (44_status_and_bus R240, R243, R246),
and the host's reads and writes of the register window (R241, R242, R244). -/

namespace Sys2Proof.Machine

/-! ### The commands -/

theorem exec_nop (s : State) : exec .nop s = .next s := rfl

theorem exec_clrStatus (m : BitVec 6) (s : State) : exec (.clrStatus m) s = .next (clearConditions m s) := rfl

theorem exec_reserved7 (s : State) : exec .reserved7 s = .next { s with errCmd := true } := rfl

theorem exec_reserved8F (op : BitVec 4) (s : State) :
    exec (.reserved8F op) s = .next { s with errCmd := true } := rfl

/-- The clears bit by bit: a selected flag or counter becomes 0, any other keeps its value. -/
theorem clearConditions_eq (m : BitVec 6) (s : State) :
    clearConditions m s = { s with
      framePend := if m.getLsbD 0 then false else s.framePend
      ovr       := if m.getLsbD 1 then false else s.ovr
      errPixel  := if m.getLsbD 2 then false else s.errPixel
      errCmd    := if m.getLsbD 3 then false else s.errCmd
      frameCnt  := if m.getLsbD 4 then 0 else s.frameCnt
      ovrCnt    := if m.getLsbD 5 then 0 else s.ovrCnt } := by
  simp only [clearConditions, Bool.if_false_left, Bool.decide_eq_true]

/-- A word of opcode 7 or above is one of the two reserved commands (30_encoding R102). -/
theorem decodeWord_of_op_reserved {w : Word} (h : 7 ≤ (fieldOp w).toNat) :
    decodeWord w = .reserved7 ∨ ∃ op, decodeWord w = .reserved8F op := by
  rcases Nat.eq_or_lt_of_le h with h7 | h8
  · exact .inl (decodeWord_of_op_reserved7 (BitVec.eq_of_toNat_eq h7.symm))
  · exact .inr ⟨_, decodeWord_of_op_reserved8F h8⟩

/-- Settles O10: decode's arm, NOP's equation, and the hold that any CMD write meets. -/
theorem nopChangesNothing : Obligations.NopChangesNothing :=
  ⟨fun _ => decodeWord_of_op_nop, exec_nop,
    fun _ w _ hm hq _ hp => step_of_held_access hm hq (cmdWrite_admitted w) hp⟩

/-- Settles O16: decode's arm, and the clears bit by bit. -/
theorem clrStatusClearsWhatTheMaskSelects : Obligations.ClrStatusClearsWhatTheMaskSelects := by
  refine ⟨fun w => decodeWord_of_op_clrStatus, fun m s => ?_⟩
  rw [exec_clrStatus, clearConditions_eq]

/-- Settles O17: a word of opcode 7 or above decodes to a reserved command, and both of them record a bad command. -/
theorem reservedWordSetsErrCmd : Obligations.ReservedWordSetsErrCmd := by
  refine ⟨fun w h s => ?_, exec_reserved7, exec_reserved8F⟩
  rcases decodeWord_of_op_reserved h with hw | ⟨op, hw⟩
  · rw [hw, exec_reserved7]
  · rw [hw, exec_reserved8F]

/-! ### The HOST's step on the register window -/

/-- The HOST's move on an access of another size or at another offset stops the machine (20_memory R74). -/
theorem step_of_wrong_shape {s : State} {a : HostAccess} {q : List HostAccess} (hm : nextMove s = .host)
    (hq : s.hostQ = a :: q) (ha : a.size ≠ 4 ∨ a.off.toNat % 4 ≠ 0) : step s = .fault (.busError a.off) := by
  have hn : a.admitted = false := by
    rw [← Bool.not_eq_true, admitted_iff]
    exact not_and_or.mpr ha
  rw [step_eq, hm]
  exact hostStep_of_not_admitted (by simpa using hq) hn

/-- A performed write acts as its slot says (44 R242, R244, R245). -/
theorem step_of_write {s : State} {v : Word} {off : BitVec 5} {q : List HostAccess} (hm : nextMove s = .host)
    (hq : s.hostQ = ⟨.write v, off, 4⟩ :: q) (hoff : off.toNat % 4 = 0) (hp : s.pending = []) :
    step s = hostWrite off v { takeMove s with hostQ := q } :=
  step_of_admitted_access hm hq ((admitted_iff _).mpr ⟨rfl, hoff⟩) hp

/-! ### Reads (R241) -/

/-- No register shows the presented accesses, the moves, the draws or the trace. -/
theorem regValue_takeMove (bd : Build) (off : BitVec 5) (s : State) (q : List HostAccess) :
    regValue bd off { takeMove s with hostQ := q } = regValue bd off s := by
  unfold regValue
  split <;> simp [statusWord, countersWord, irqCtrlWord]

/-- The read of a HOST step puts the register's value in a trace that was empty, and does nothing else. -/
theorem hostRead_takeMove (off : BitVec 5) (s : State) (q : List HostAccess) :
    hostRead off { takeMove s with hostQ := q } =
      .next { takeMove s with hostQ := q, out := [.readData (regValue Config.build off s)] } := by
  rw [hostRead, regValue_takeMove, emit, takeMove_out, List.nil_append]

/-- IRQ_CTRL is its three enables, zero-extended (10_state R51). -/
theorem irqCtrlWord_eq_setWidth (s : State) :
    irqCtrlWord s =
      (BitVec.ofBool s.ieErr ++ BitVec.ofBool s.ieOvr ++ BitVec.ofBool s.ieFrame : BitVec 3).setWidth 32 := by
  unfold irqCtrlWord
  cases s.ieErr <;> cases s.ieOvr <;> cases s.ieFrame <;> rfl

/-- Settles O26: the three fates of a read by its shape and the hold, STATUS after INIT, and the eight slots. -/
theorem readReturnsTheRegister : Obligations.ReadReturnsTheRegister := by
  obtain ⟨-, -, -, hinit⟩ := initConfiguresAndEnables
  refine ⟨fun s off q hm hq hoff hp => ?_, fun s off q hm hq hoff hp => ?_, fun s off size q hm hq hshape => ?_,
    hinit, fun bd s => ⟨rfl, ?_, rfl, irqCtrlWord_eq_setWidth s, rfl, rfl, rfl, rfl⟩⟩
  · rw [step_of_admitted_access hm hq ((admitted_iff _).mpr ⟨rfl, hoff⟩) hp]
    exact hostRead_takeMove off s q
  · exact step_of_held_access hm hq ((admitted_iff _).mpr ⟨rfl, hoff⟩) hp
  · exact step_of_wrong_shape hm hq hshape
  · rw [regValue_status, statusWord, policyBit_eq]

/-! ### Writes (R242, R244) -/

/-- IRQ is 1 exactly where a sticky flag and its enable are both set (10_state R45). -/
theorem irq_iff (s : State) :
    irq s = true ↔ (s.framePend = true ∧ s.ieFrame = true) ∨ (s.ovr = true ∧ s.ieOvr = true) ∨
      ((s.errPixel = true ∨ s.errCmd = true) ∧ s.ieErr = true) := by
  simp [irq, or_assoc]

/-- A FRAME raises IRQ where FRAME_IE is set. -/
theorem irq_frameComplete {s : State} (h : s.ieFrame = true) : irq (frameComplete s) = true :=
  (irq_iff _).mpr (.inl ⟨rfl, h⟩)

theorem hostWrite_irqCtrl (v : Word) (s : State) : hostWrite 0x0C v s = .next (writeIrqCtrl v s) := rfl

/-- Settles O28: the wrong shape, the raise by FRAME, and IRQ of the state that the write leaves. -/
theorem irqCtrlWriteSetsTheEnables : Obligations.IrqCtrlWriteSetsTheEnables := by
  refine ⟨fun s v off size q hm hq hshape => step_of_wrong_shape hm hq hshape, fun s h => irq_frameComplete h,
    fun s v q hm hq hp => ⟨writeIrqCtrl v { takeMove s with hostQ := q }, ?_, rfl, ?_⟩⟩
  · rw [step_of_write hm hq rfl hp, hostWrite_irqCtrl]
  · simp [irq_iff]

/-- Settles O29: each of the six offsets is an admitted one other than CMD's and IRQ_CTRL's. -/
theorem readOnlyAndReservedWritesAreIgnored : Obligations.ReadOnlyAndReservedWritesAreIgnored := by
  intro s v off q hm hq hp hoff
  have hslot : off.toNat % 4 = 0 ∧ off ≠ 0x00 ∧ off ≠ 0x0C := by
    rcases hoff with rfl | rfl | rfl | rfl | rfl | rfl <;> decide
  obtain ⟨hadm, hcmd, hirq⟩ := hslot
  rw [step_of_write hm hq hadm hp, hostWrite_ignored hcmd hirq]

end Sys2Proof.Machine
end

section
/-! Proofs about the exceptions family: the inversion of a step that stops with a fault (20_memory R74, 42 R179,
60_exceptions R262), one lemma per operation it goes through, and the BusError. -/

namespace Sys2Proof.Machine

/-! ### The HOST's move stops only for a BusError -/

/-- A write is a command, the interrupt enables or ignored, and each of them completes. -/
theorem hostWrite_completes (off : BitVec 5) (v : Word) (s : State) : ∃ t, hostWrite off v s = .next t := by
  unfold hostWrite
  split
  · exact exec_next (decodeWord v) s
  · exact ⟨_, rfl⟩
  · exact ⟨_, rfl⟩

theorem hostAccess_completes (a : HostAccess) (s : State) : ∃ t, hostAccess a s = .next t := by
  unfold hostAccess
  split
  · exact ⟨_, rfl⟩
  · exact hostWrite_completes ..

/-- An admitted access holds or is performed, and the HOST's move completes (20_memory R74, R80). -/
theorem hostStep_of_admitted_completes {u : State} {a : HostAccess} {q : List HostAccess} (hq : u.hostQ = a :: q)
    (ha : a.admitted = true) : ∃ t, hostStep u = .next t := by
  by_cases hp : u.pending = []
  · simpa [hostStep, hq, ha, hp] using hostAccess_completes a { u with hostQ := q }
  · exact ⟨u, hostStep_of_held_access hq ha hp⟩

/-- The HOST's move stops exactly on an access that is not admitted, with its offset (60_exceptions R262). -/
theorem hostStep_fault {u : State} {f : Fault} :
    hostStep u = .fault f ↔ ∃ a q, u.hostQ = a :: q ∧ a.admitted = false ∧ f = .busError a.off := by
  constructor
  · intro h
    cases hq : u.hostQ with
    | nil => simp [hostStep_of_no_access hq] at h
    | cons a q =>
      cases ha : a.admitted with
      | true =>
        obtain ⟨t, ht⟩ := hostStep_of_admitted_completes hq ha
        simp [ht] at h
      | false => exact ⟨a, q, rfl, ha, by simpa [hostStep_of_not_admitted hq ha] using h.symm⟩
  · rintro ⟨a, q, hq, ha, rfl⟩
    exact hostStep_of_not_admitted hq ha

/-! ### PORT's move stops only from an illegal scan position -/

theorem tick_fault {bd : Build} {s : State} {f : Fault} (h : tick bd s = .fault f) : f = .illegalScan := by
  unfold tick at h
  split at h
  · cases h; rfl
  · split at h
    · cases h; rfl
    · cases h

theorem boundary_fault {bd : Build} {late : Bool} {s : State} {f : Fault} (h : boundary bd late s = .fault f) :
    f = .illegalScan :=
  tick_fault h

/-- A disabled PORT's move is no boundary, so the move that stops was one. -/
theorem portStep_fault {bd : Build} {late : Bool} {s : State} {f : Fault} (h : portStep bd late s = .fault f) :
    s.run = true ∧ f = .illegalScan := by
  unfold portStep at h
  split at h
  next hr => exact ⟨hr, boundary_fault h⟩
  next => cases h

/-! ### All the ways a step can stop -/

/-- A step that stops was the HOST's on an access that is not admitted, or a boundary from an illegal position. -/
theorem step_fault {s : State} {f : Fault} (h : step s = .fault f) :
    (nextMove s = .host ∧ ∃ a q, s.hostQ = a :: q ∧ a.admitted = false ∧ f = .busError a.off) ∨
    ((boundaryOfStep s).isSome = true ∧ f = .illegalScan) := by
  rw [step_eq] at h
  cases hm : nextMove s with
  | host =>
    rw [hm] at h
    exact .inl ⟨rfl, by simpa using hostStep_fault.mp h⟩
  | engine k => simp [hm, runMove] at h
  | port late =>
    rw [hm] at h
    obtain ⟨hr, hf⟩ := portStep_fault h
    exact .inr ⟨by simpa [boundaryOfStep, hm] using hr, hf⟩
  | issue a => simp [hm, runMove] at h

/-- An access that is not admitted is of another size or at another offset (20_memory R74). -/
theorem not_admitted_iff (a : HostAccess) : a.admitted = false ↔ a.size ≠ 4 ∨ a.off.toNat % 4 ≠ 0 := by
  rw [← Bool.not_eq_true, admitted_iff, not_and_or]

/-- Settles O25: the HOST's move on a wrong shape, and of the two ways a step can stop the one that is a BusError. -/
theorem wrongShapedAccessIsABusError : Obligations.WrongShapedAccessIsABusError := by
  refine ⟨fun _ _ _ hm hq hshape => step_of_wrong_shape hm hq hshape, fun s o h => ?_⟩
  rcases step_fault h with ⟨hm, a, q, hq, ha, hf⟩ | ⟨-, hf⟩
  · exact ⟨hm, a, q, hq, (Fault.busError.inj hf).symm, (not_admitted_iff a).mp ha⟩
  · cases hf

end Sys2Proof.Machine
end

section
/-! Proofs about the encoder as the decoder's inverse (30_encoding R100 to R104), and the step that runs the presented
command (20_memory R78, log 17). -/

namespace Sys2Proof

/-! ### Decode of encode -/

/-- A well-formed command is the arm its word selects, with the operands its word carries. -/
theorem decodeWord_encode {i : Instr} (h : i.wf = true) : decodeWord (encode i) = i := by
  cases i with
  | nop => exact decodeWord_of_op_nop (fieldOp_cmdw ..)
  | init => exact decodeWord_of_op_init (fieldOp_cmdw ..)
  | enable => exact decodeWord_of_op_enable (fieldOp_cmdw ..)
  | disable => exact decodeWord_of_op_disable (fieldOp_cmdw ..)
  | setColor pix r g b => simp [encode, decodeWord_of_op_setColor]
  | setAll r g b => simp [encode, decodeWord_of_op_setAll]
  | clrStatus m => simp [encode, decodeWord_of_op_clrStatus, -BitVec.ofNat_eq_ofNat]
  | reserved7 => exact decodeWord_of_op_reserved7 (fieldOp_cmdw ..)
  | reserved8F op =>
    have hop : 8 ≤ op.toNat := of_decide_eq_true h
    simp [encode, decodeWord_of_op_reserved8F, hop]

/-- Decoding the bytes of a word before any others decodes the word and leaves the others. -/
theorem decodeBytes_bytesOfWord_append (w : Word) (rest : List Byte) :
    decodeBytes (bytesOfWord w ++ rest) = .ok (decodeWord w, rest) := by
  simp only [bytesOfWord, List.cons_append, List.nil_append, decodeBytes, wordOfBytes_bytesOfWord]

/-- Settles O1: the arm of each command, as a word and as bytes. -/
theorem decodeOfEncodeIsTheCommand : Obligations.DecodeOfEncodeIsTheCommand := by
  intro i h
  refine ⟨decodeWord_encode h, fun rest => ?_⟩
  rw [encodeBytes, decodeBytes_bytesOfWord_append, decodeWord_encode h]

/-! ### Encode of decode -/

/-- A word is its five fields in the one format CMDW (R100). -/
theorem cmdw_fields (w : Word) : cmdw (fieldOp w) (fieldPix w) (fieldR w) (fieldG w) (fieldB w) = w := by
  simp only [cmdw, fieldOp, fieldPix, fieldR, fieldG, fieldB]
  rw [BitVec.extractLsb'_append_extractLsb'_eq_extractLsb' (by rfl)]
  rw [BitVec.extractLsb'_append_extractLsb'_eq_extractLsb' (by rfl)]
  rw [BitVec.extractLsb'_append_extractLsb'_eq_extractLsb' (by rfl)]
  rw [BitVec.extractLsb'_append_extractLsb'_eq_extractLsb' (by rfl)]
  simp

theorem cmdw_and_cmdw (op op' pix pix' : BitVec 4) (r r' g g' b b' : Byte) :
    cmdw op pix r g b &&& cmdw op' pix' r' g' b' =
      cmdw (op &&& op') (pix &&& pix') (r &&& r') (g &&& g') (b &&& b') := by
  change ((op ++ pix ++ r ++ g ++ b : BitVec (4 + 4 + 8 + 8 + 8)) &&& (op' ++ pix' ++ r' ++ g' ++ b')) = _
  simp only [BitVec.and_append, cmdw]

/-- A mask in the format CMDW masks a word field by field. -/
theorem and_cmdw (w : Word) (op pix : BitVec 4) (r g b : Byte) :
    w &&& cmdw op pix r g b =
      cmdw (fieldOp w &&& op) (fieldPix w &&& pix) (fieldR w &&& r) (fieldG w &&& g) (fieldB w &&& b) := by
  conv_lhs => rw [← cmdw_fields w]
  rw [cmdw_and_cmdw]

/-- Where only the opcode counts, masking leaves the opcode over zeros. -/
theorem and_opcodeBits (w : Word) : w &&& 0xF0000000 = cmdw (fieldOp w) 0 0 0 0 := by
  rw [show (0xF0000000 : Word) = cmdw (BitVec.allOnes 4) 0 0 0 0 from rfl, and_cmdw]
  simp only [BitVec.and_allOnes, BitVec.ofNat_eq_ofNat, BitVec.and_zero]

theorem opcode_cases : ∀ op : BitVec 4, op = 0x0 ∨ op = 0x1 ∨ op = 0x2 ∨ op = 0x3 ∨ op = 0x4 ∨ op = 0x5 ∨
    op = 0x6 ∨ op = 0x7 ∨ 8 ≤ op.toNat := by decide

/-- The mask of CLR_STATUS is the low six bits of the Blue field (R103). -/
theorem setWidth_fieldMask (w : Word) : (fieldMask w).setWidth 8 = fieldB w &&& 0x3F := by
  have hlow : ∀ b : Byte, (b.setWidth 6).setWidth 8 = b &&& 0x3F := by decide
  rw [← hlow, fieldB, BitVec.setWidth_extractLsb'_of_le (by decide), fieldMask]

theorem and_usedBits_setColor (w : Word) :
    w &&& 0xFFFFFFFF = cmdw (fieldOp w) (fieldPix w) (fieldR w) (fieldG w) (fieldB w) := by
  rw [cmdw_fields]
  exact BitVec.and_allOnes

theorem and_usedBits_setAll (w : Word) :
    w &&& 0xF0FFFFFF = cmdw (fieldOp w) 0 (fieldR w) (fieldG w) (fieldB w) := by
  rw [show (0xF0FFFFFF : Word) =
    cmdw (BitVec.allOnes 4) 0 (BitVec.allOnes 8) (BitVec.allOnes 8) (BitVec.allOnes 8) from rfl, and_cmdw]
  simp only [BitVec.and_allOnes, BitVec.ofNat_eq_ofNat, BitVec.and_zero]

theorem and_usedBits_clrStatus (w : Word) :
    w &&& 0xF000003F = cmdw (fieldOp w) 0 0 0 ((fieldMask w).setWidth 8) := by
  rw [show (0xF000003F : Word) = cmdw (BitVec.allOnes 4) 0 0 0 0x3F from rfl, and_cmdw, setWidth_fieldMask]
  simp only [BitVec.and_allOnes, BitVec.ofNat_eq_ofNat, BitVec.and_zero]

/-- Every word decodes to a well-formed command: the last arm's opcode is 8 or above (R101, R105). -/
theorem decodeWord_wf (w : Word) : (decodeWord w).wf = true := by
  rcases opcode_cases (fieldOp w) with h | h | h | h | h | h | h | h | h
  · rw [decodeWord_of_op_nop h]; rfl
  · rw [decodeWord_of_op_init h]; rfl
  · rw [decodeWord_of_op_enable h]; rfl
  · rw [decodeWord_of_op_disable h]; rfl
  · rw [decodeWord_of_op_setColor h]; rfl
  · rw [decodeWord_of_op_setAll h]; rfl
  · rw [decodeWord_of_op_clrStatus h]; rfl
  · rw [decodeWord_of_op_reserved7 h]; rfl
  · rw [decodeWord_of_op_reserved8F h]; exact decide_eq_true h

/-- Each arm encodes the opcode and the operand fields of the word, and 0 in the bits it ignores (R104, R108). -/
theorem encode_decodeWord (w : Word) : encode (decodeWord w) = w &&& usedBits (decodeWord w) := by
  rcases opcode_cases (fieldOp w) with h | h | h | h | h | h | h | h | h
  · rw [decodeWord_of_op_nop h, usedBits, and_opcodeBits, h]; rfl
  · rw [decodeWord_of_op_init h, usedBits, and_opcodeBits, h]; rfl
  · rw [decodeWord_of_op_enable h, usedBits, and_opcodeBits, h]; rfl
  · rw [decodeWord_of_op_disable h, usedBits, and_opcodeBits, h]; rfl
  · rw [decodeWord_of_op_setColor h, usedBits, and_usedBits_setColor, h]; rfl
  · rw [decodeWord_of_op_setAll h, usedBits, and_usedBits_setAll, h]; rfl
  · rw [decodeWord_of_op_clrStatus h, usedBits, and_usedBits_clrStatus, h]; rfl
  · rw [decodeWord_of_op_reserved7 h, usedBits, and_opcodeBits, h]; rfl
  · rw [decodeWord_of_op_reserved8F h, usedBits, and_opcodeBits]; rfl

/-- Settles O2: by the arm that the opcode selects. -/
theorem encodeOfDecodeKeepsEveryUsedBit : Obligations.EncodeOfDecodeKeepsEveryUsedBit :=
  fun w => ⟨decodeWord_wf w, encode_decodeWord w⟩

/-- Settles O4: closed words, each evaluated. -/
theorem wordsOfTheSpecDecodeAndEncode : Obligations.WordsOfTheSpecDecodeAndEncode := by
  unfold Obligations.WordsOfTheSpecDecodeAndEncode
  decide

end Sys2Proof

namespace Sys2Proof.Machine

/-! ### The step that runs the presented command -/

theorem nextMove_of_moves_cons {s : State} {m : Move} {ms : List Move} (h : s.moves = m :: ms) : nextMove s = m := by
  simp [nextMove, h]

theorem takeMove_of_moves_cons {s : State} {m : Move} {ms : List Move} (h : s.moves = m :: ms) :
    takeMove s = { s with moves := ms, out := [] } := by
  simp [takeMove, h]

theorem nextMove_of_moves_nil {s : State} (h : s.moves = []) : nextMove s = Config.freeMove s.draws := by
  simp [nextMove, h]

theorem takeMove_of_moves_nil {s : State} (h : s.moves = []) :
    takeMove s = { s with draws := s.draws + 1, out := [] } := by
  simp [takeMove, h]

/-- A placed word is run by the very next step, in the state as it was but for the pending set and the trace. -/
theorem step_placeCommand (w : Word) (s : State) :
    step (placeCommand w s) = exec (decodeWord w) { s with pending := [], out := [] } :=
  step_of_cmdWrite rfl rfl rfl

theorem withFetchWord_toNat (s : State) (w : Word) : s.withFetchWord 32 w.toNat = placeCommand w s := by
  rw [State.withFetchWord, Nat.mod_eq_of_lt w.isLt, BitVec.ofNat_toNat, BitVec.setWidth_eq]

/-- Settles O23: the performed CMD write, the two sources of a move, and the placed command. -/
theorem stepRunsThePresentedCommand : Obligations.StepRunsThePresentedCommand := by
  refine ⟨fun s w q i hm hq hp hd => ?_,
    fun _ _ _ h => ⟨nextMove_of_moves_cons h, takeMove_of_moves_cons h⟩,
    fun _ h => ⟨nextMove_of_moves_nil h, takeMove_of_moves_nil h⟩, fun s w => ?_⟩
  · have hdec := decodeBytes_bytesOfWord_append w []
    rw [List.append_nil, hd] at hdec
    obtain rfl : i = decodeWord w := congrArg Prod.fst (Except.ok.inj hdec)
    exact step_of_cmdWrite hm hq hp
  · rw [withFetchWord_toNat, step_placeCommand]

end Sys2Proof.Machine
end

section
/-! Proofs about the order of drive levels and on-times (40_gamma_rom R134, R135; 60_exceptions R271). -/

namespace Sys2Proof.Machine

/-- A brighter input never has a greater drive level: the table grows, and the level falls with it. -/
theorem rom_antitone (bd : Build) (c : Channel) {l m : Byte} (h : l.toNat ≤ m.toNat) :
    (rom bd c m).toNat ≤ (rom bd c l).toNat := by
  rw [rom_toNat, rom_toNat]
  exact Nat.sub_le_sub_left (Nat.div_le_div_right (gamma_mono h)) 255

theorem rom_lower_bound (bd : Build) (c : Channel) (l : Byte) : 255 - 255 / divisor bd c ≤ (rom bd c l).toNat := by
  rw [rom_toNat]
  exact Nat.sub_le_sub_left (Nat.div_le_div_right (gamma_le l)) 255

/-- The table is 0 up to 27, so these inputs are off on every build. -/
theorem rom_of_le_27 (bd : Build) (c : Channel) {l : Byte} (h : l.toNat ≤ 27) : rom bd c l = 255 := by
  have h27 : gamma 27 = 0 := by decide
  have hl : gamma l = 0 := Nat.le_zero.mp (h27 ▸ gamma_mono h)
  exact BitVec.eq_of_toNat_eq (by rw [rom_toNat, hl, Nat.zero_div]; rfl)

/-- Settles O7: the off input, the order, the bounds, and the dark inputs. -/
theorem romIsMonotoneAndBounded : Obligations.RomIsMonotoneAndBounded :=
  fun bd c => ⟨rom_zero bd c, fun _ _ h => rom_antitone bd c h.le,
    fun l => ⟨rom_lower_bound bd c l, Nat.lt_succ_iff.mp (rom bd c l).isLt⟩, fun _ => rom_of_le_27 bd c⟩

/-! ### On-times -/

theorem duty_off : duty 255 = 0 := rfl

theorem onTimeFrom_mono (step : Nat → Nat) : Monotone (onTimeFrom step) :=
  monotone_nat_of_le_succ fun _ => Nat.le_add_right ..

/-- The duty function does not grow with the drive level, whatever the Port's own steps are. -/
theorem duty_antitone {v w : Byte} (h : v.toNat ≤ w.toNat) : duty w ≤ duty v :=
  onTimeFrom_mono _ (Nat.sub_le_sub_left h 255)

/-- Settles O9: the duty function falls with the level, and the level with the input. -/
theorem brighterInputIsOnNoShorter : Obligations.BrighterInputIsOnNoShorter :=
  ⟨duty_off, fun bd c _ _ h => duty_antitone (rom_antitone bd c h)⟩

/-! ### Blue's middle input (R135) -/

/-- GAMMA[128] = 37 scaled down is on exactly up to the divisor 37, and never full. -/
theorem mid_level_strict_iff {d : Nat} (hd : 1 ≤ d) :
    (0 < 255 - gamma 128 / d ∧ 255 - gamma 128 / d < 255) ↔ d ≤ 37 := by
  have hle : 37 / d ≤ 37 := Nat.div_le_self 37 d
  have hpos : 0 < 37 / d ↔ d ≤ 37 := Nat.div_pos_iff.trans (by omega)
  rw [gamma_128]
  omega

theorem divisor_blue_le (bd : Build) : divisor bd .blue ≤ 37 := bd.divBLess.isLt

/-- Settles O8: Blue's divisor is at most 37 on every build, and 37 is the bound. -/
theorem blueMidInputIsStrictlyBetween : Obligations.BlueMidInputIsStrictlyBetween := by
  refine ⟨fun bd => ?_, fun d hd _ => mid_level_strict_iff hd⟩
  rw [rom_toNat]
  exact (mid_level_strict_iff (divisor_pos bd .blue)).mpr (divisor_blue_le bd)

end Sys2Proof.Machine
end

section
/-! Proofs about the colour commands and the ENGINE as a whole: what they leave unchanged, SET_ALL as six SET_COLORs
(41_color_store R158), and the end that every order of micro-writes reaches (R154). -/

namespace Sys2Proof.Machine

/-! ### Frames of the colour commands -/

/-- SET_COLOR has a pixel in range, or a PIX field of 6 or more (41_color_store R151, R152). -/
theorem pixelField_cases (pix : BitVec 4) : (∃ p : Pixel, pix.toNat = p.val) ∨ 6 ≤ pix.toNat := by
  by_cases h : pix.toNat < 6
  · exact .inl ⟨⟨pix.toNat, h⟩, rfl⟩
  · exact .inr (Nat.le_of_not_lt h)

theorem submit_pending_of_atomic {bd : Build} (h : bd.atomic = true) (ms : List MicroWrite) (s : State) :
    (submit bd ms s).pending = s.pending := by
  rw [submit_of_atomic h, writeCells_only_store]

theorem submit_store_of_not_atomic {bd : Build} (h : bd.atomic = false) (ms : List MicroWrite) (s : State) :
    (submit bd ms s).store = s.store := by
  rw [submit_of_not_atomic h]

theorem submit_errPixel (bd : Build) (ms : List MicroWrite) (s : State) :
    (submit bd ms s).errPixel = s.errPixel := by
  rw [submit_only_store_pending]

/-- A cell that no micro-write names reads as before, whether the set is written now or left to the ENGINE. -/
theorem cell_submit_of_notMem {ms : List MicroWrite} {p : Pixel} {c : Channel} (bd : Build) (s : State)
    (h : (p, c) ∉ ms.map fun m => (m.pix, m.ch)) : cell (submit bd ms s) p c = cell s p c := by
  cases ha : bd.atomic with
  | true => rw [submit_of_atomic ha, cell_writeCells_of_notMem s h]
  | false => rw [submit_of_not_atomic ha]; rfl

/-- The micro-writes of a pixel name no cell of another. -/
theorem notMem_pixelWrites {p q : Pixel} (h : p ≠ q) (bd : Build) (r g b : Byte) (c : Channel) :
    (p, c) ∉ (pixelWrites bd q r g b).map fun m => (m.pix, m.ch) := by
  simp [pixelWrites, h]

theorem setColor_only_store_pending_errPixel (bd : Build) (pix : BitVec 4) (r g b : Byte) (s : State) :
    setColor bd pix r g b s = { s with
      store := (setColor bd pix r g b s).store, pending := (setColor bd pix r g b s).pending,
      errPixel := (setColor bd pix r g b s).errPixel } := by
  rcases pixelField_cases pix with ⟨p, hp⟩ | hp
  · rw [setColor_of_toNat_eq hp, submit_only_store_pending]
  · rw [setColor_of_ge hp]

theorem setColor_errPixel_of_lt {pix : BitVec 4} (h : pix.toNat < 6) (bd : Build) (r g b : Byte) (s : State) :
    (setColor bd pix r g b s).errPixel = s.errPixel := by
  rw [setColor_of_toNat_eq (p := ⟨pix.toNat, h⟩) rfl, submit_errPixel]

theorem cell_setColor_of_ne {pix : BitVec 4} {p : Pixel} (h : p.val ≠ pix.toNat) (bd : Build) (r g b : Byte)
    (s : State) (c : Channel) : cell (setColor bd pix r g b s) p c = cell s p c := by
  rcases pixelField_cases pix with ⟨q, hq⟩ | hq
  · have hne : p ≠ q := fun e => h (e ▸ hq.symm)
    rw [setColor_of_toNat_eq hq, cell_submit_of_notMem bd s (notMem_pixelWrites hne bd r g b c)]
  · rw [setColor_of_ge hq]; rfl

theorem setColor_pending_of_atomic {bd : Build} (h : bd.atomic = true) (pix : BitVec 4) (r g b : Byte) (s : State) :
    (setColor bd pix r g b s).pending = s.pending := by
  rcases pixelField_cases pix with ⟨p, hp⟩ | hp
  · rw [setColor_of_toNat_eq hp, submit_pending_of_atomic h]
  · rw [setColor_of_ge hp]

theorem setColor_store_of_not_atomic {bd : Build} (h : bd.atomic = false) (pix : BitVec 4) (r g b : Byte)
    (s : State) : (setColor bd pix r g b s).store = s.store := by
  rcases pixelField_cases pix with ⟨p, hp⟩ | hp
  · rw [setColor_of_toNat_eq hp, submit_store_of_not_atomic h]
  · rw [setColor_of_ge hp]

/-- Settles O18: the frames of the two operations, on both kinds of build. -/
theorem frameOfColourCommands : Obligations.FrameOfColourCommands := by
  refine ⟨fun pix r g b s => ⟨exec_setColor pix r g b s, exec_setAll r g b s⟩, ?_, ?_⟩
  · rintro bd pix r g b s _ rfl
    exact ⟨setColor_only_store_pending_errPixel bd pix r g b s, fun h => setColor_errPixel_of_lt h bd r g b s,
      fun p c h => cell_setColor_of_ne h bd r g b s c, fun h => setColor_pending_of_atomic h pix r g b s,
      fun h => setColor_store_of_not_atomic h pix r g b s⟩
  · rintro bd r g b s _ rfl
    exact ⟨submit_only_store_pending bd (allWrites bd r g b) s, fun h => submit_pending_of_atomic h _ s,
      fun h => submit_store_of_not_atomic h _ s⟩

/-! ### SET_ALL as six SET_COLORs (R158) -/

/-- Micro-write lists one after another are one list. -/
theorem writeCells_flatMap (ps : List Pixel) (f : Pixel → List MicroWrite) (s : State) :
    writeCells (ps.flatMap f) s = ps.foldl (fun u p => writeCells (f p) u) s := by
  induction ps generalizing s with
  | nil => rfl
  | cons p ps ih => rw [List.flatMap_cons, writeCells_append, ih, List.foldl_cons]

/-- SET_COLOR of a pixel's own field writes that pixel, on a build that writes a colour in one step. -/
theorem setColor_pixel_of_atomic {bd : Build} (h : bd.atomic = true) (p : Pixel) (r g b : Byte) (s : State) :
    setColor bd (BitVec.ofNat 4 p.val) r g b s = writeCells (pixelWrites bd p r g b) s := by
  have hp : (BitVec.ofNat 4 p.val).toNat = p.val := Nat.mod_eq_of_lt (by omega)
  rw [setColor_of_toNat_eq hp, submit_of_atomic h]

theorem pixelFields_eq : ([0, 1, 2, 3, 4, 5] : List (BitVec 4)) = pixels.map fun p => BitVec.ofNat 4 p.val := rfl

/-- Settles O21: SET_ALL's micro-writes are those of the six pixels in order. -/
theorem setAllIsSixSetColors : Obligations.SetAllIsSixSetColors := by
  intro bd r g b s ha _
  rw [setAll, submit_of_atomic ha, allWrites, writeCells_flatMap, pixelFields_eq, List.foldl_map]
  simp only [setColor_pixel_of_atomic ha]

/-! ### Cells determine the store -/

theorem Triple.ext_get {t u : Triple} (h : ∀ c, t.get c = u.get c) : t = u := by
  obtain ⟨tr, tg, tb⟩ := t
  obtain ⟨ur, ug, ub⟩ := u
  obtain rfl : tr = ur := h .red
  obtain rfl : tg = ug := h .green
  obtain rfl : tb = ub := h .blue
  rfl

theorem store_eq_of_cell_eq {s t : State} (h : ∀ p c, cell s p c = cell t p c) : s.store = t.store := by
  ext1 k hk
  exact Triple.ext_get (h ⟨k, hk⟩)

/-! ### Runs of the ENGINE (R153, R154) -/

@[simp] theorem engineRun_nil (s : State) : engineRun [] s = s := rfl

@[simp] theorem engineRun_cons (k : Nat) (ks : List Nat) (s : State) :
    engineRun (k :: ks) s = engineRun ks (engineStep k s) := rfl

theorem engineStep_only_store_pending (k : Nat) (s : State) :
    engineStep k s = { s with store := (engineStep k s).store, pending := (engineStep k s).pending } := by
  unfold engineStep
  split <;> rfl

theorem engineRun_only_store_pending (ks : List Nat) (s : State) :
    engineRun ks s = { s with store := (engineRun ks s).store, pending := (engineRun ks s).pending } := by
  induction ks generalizing s with
  | nil => rfl
  | cons k ks ih => rw [engineRun_cons, ih, engineStep_only_store_pending]

theorem engineStep_pending_length (k : Nat) (s : State) :
    (engineStep k s).pending.length = s.pending.length - 1 := by
  by_cases hs : s.pending = []
  · simp [hs]
  · obtain ⟨before, m, after, hs, hk⟩ := pending_split k hs
    simp [engineStep_of_pending_eq hs hk, hs]

theorem engineRun_pending_length (ks : List Nat) (s : State) :
    (engineRun ks s).pending.length = s.pending.length - ks.length := by
  induction ks generalizing s with
  | nil => rfl
  | cons k ks ih => rw [engineRun_cons, ih, engineStep_pending_length, List.length_cons]; omega

/-- The ENGINE only takes micro-writes out of the pending set. -/
theorem engineStep_pending_sublist (k : Nat) (s : State) : (engineStep k s).pending.Sublist s.pending := by
  by_cases hs : s.pending = []
  · simp [hs]
  · obtain ⟨before, m, after, hs, hk⟩ := pending_split k hs
    rw [engineStep_of_pending_eq hs hk, hs]
    exact (List.sublist_cons_self m after).append_left before

theorem engineRun_pending_sublist (ks : List Nat) (s : State) : (engineRun ks s).pending.Sublist s.pending := by
  induction ks generalizing s with
  | nil => exact List.Sublist.refl _
  | cons k ks ih => exact (ih _).trans (engineStep_pending_sublist k s)

/-- An ENGINE step leaves the cells alone that no pending micro-write names. -/
theorem cell_engineStep_of_notMem {s : State} {p : Pixel} {c : Channel} (k : Nat)
    (h : (p, c) ∉ s.pending.map fun m => (m.pix, m.ch)) : cell (engineStep k s) p c = cell s p c := by
  by_cases hs : s.pending = []
  · rw [engineStep_of_empty k s hs]
  · obtain ⟨before, m, after, hs, hk⟩ := pending_split k hs
    have hm : m ∈ s.pending := by simp [hs]
    rw [engineStep_of_pending_eq hs hk]
    exact cell_writeCell_of_ne m s p c fun e => h (e ▸ List.mem_map_of_mem hm)

theorem cell_engineRun_of_notMem {s : State} {p : Pixel} {c : Channel} (ks : List Nat)
    (h : (p, c) ∉ s.pending.map fun m => (m.pix, m.ch)) : cell (engineRun ks s) p c = cell s p c := by
  induction ks generalizing s with
  | nil => rfl
  | cons k ks ih =>
    have hsub := (engineStep_pending_sublist k s).map fun m => (m.pix, m.ch)
    rw [engineRun_cons, ih fun hin => h (hsub.subset hin), cell_engineStep_of_notMem k h]

/-- Where the cells are distinct, a cell is old while its micro-write is pending and new after it: the micro-write that
a step performs leaves the set, and no other that is pending names its cell. -/
theorem cell_engineRun_of_mem {s : State} {m : MicroWrite} (ks : List Nat)
    (hd : (s.pending.map fun m => (m.pix, m.ch)).Nodup) (hm : m ∈ s.pending) :
    cell (engineRun ks s) m.pix m.ch =
      if m ∈ (engineRun ks s).pending then cell s m.pix m.ch else m.val := by
  induction ks generalizing s with
  | nil => simp [hm]
  | cons k ks ih =>
    obtain ⟨before, n, after, hs, hk⟩ := pending_split k (List.ne_nil_of_mem hm)
    have hstep := engineStep_of_pending_eq hs hk
    have hpend : (engineStep k s).pending = before ++ after := by rw [hstep]
    have hcell : ∀ p c, cell (engineStep k s) p c = cell (writeCell n s) p c := fun p c => by rw [hstep]; rfl
    have hperm : ((n :: (before ++ after)).map fun m => (m.pix, m.ch)).Nodup :=
      ((List.perm_middle.map _).nodup_iff).mp (hs ▸ hd)
    obtain ⟨hn, hd'⟩ := List.nodup_cons.mp hperm
    rw [engineRun_cons]
    by_cases hin : m ∈ before ++ after
    · have hne : (n.pix, n.ch) ≠ (m.pix, m.ch) := fun e => hn (List.mem_map.mpr ⟨m, hin, e.symm⟩)
      rw [ih (hpend ▸ hd') (hpend ▸ hin), hcell, cell_writeCell_of_ne _ _ _ _ hne]
    · obtain rfl : m = n :=
        (List.mem_cons.mp (List.perm_middle.mem_iff.mp (hs ▸ hm))).resolve_right hin
      have hgone : m ∉ (engineRun ks (engineStep k s)).pending := fun h =>
        hin (hpend ▸ (engineRun_pending_sublist ks _).subset h)
      rw [cell_engineRun_of_notMem ks (hpend ▸ hn), if_neg hgone, hcell, cell_writeCell, if_pos ⟨rfl, rfl⟩]

/-- After enough steps nothing is pending, and the cells are those of the micro-writes in order. -/
theorem engineRun_of_length_le {s : State} {ks : List Nat} (hd : (s.pending.map fun m => (m.pix, m.ch)).Nodup)
    (hlen : s.pending.length ≤ ks.length) :
    engineRun ks s = { writeCells s.pending s with pending := [] } := by
  have hnone : (engineRun ks s).pending = [] := by
    rw [← List.length_eq_zero_iff, engineRun_pending_length]
    omega
  have hstore : (engineRun ks s).store = (writeCells s.pending s).store := by
    refine store_eq_of_cell_eq fun p c => ?_
    by_cases hpc : (p, c) ∈ s.pending.map fun m => (m.pix, m.ch)
    · obtain ⟨m, hm, he⟩ := List.mem_map.mp hpc
      obtain ⟨rfl, rfl⟩ := Prod.mk.inj he
      rw [cell_engineRun_of_mem ks hd hm, hnone, if_neg List.not_mem_nil, cell_writeCells_of_mem s hd hm]
    · rw [cell_engineRun_of_notMem ks hpc, cell_writeCells_of_notMem s hpc]
  rw [engineRun_only_store_pending, hnone, hstore, writeCells_only_store]

/-- Settles O31: the cells a pending micro-write names, the other cells, and the end. -/
theorem engineOrderDoesNotMatter : Obligations.EngineOrderDoesNotMatter :=
  fun _ ks hd => ⟨fun _ hm => cell_engineRun_of_mem ks hd hm, fun _ _ h => cell_engineRun_of_notMem ks h,
    engineRun_of_length_le hd⟩

end Sys2Proof.Machine
end

section
/-! Proofs about what a command leaves unchanged: the frames of the status and lifecycle commands, INIT twice, the
pending micro-writes over a step (41_color_store R151, R153), and where a step stops (60_exceptions R261, R262). -/

namespace Sys2Proof.Machine

/-! ### NOP, CLR_STATUS and the reserved words -/

/-- Settles O19: the equation of each of the four commands. -/
theorem frameOfStatusCommands : Obligations.FrameOfStatusCommands := by
  rintro i s t (rfl | ⟨m, rfl⟩ | rfl | ⟨op, rfl⟩) h
  · rw [exec_nop] at h
    cases h
    exact ⟨rfl, fun _ _ => rfl⟩
  · rw [exec_clrStatus] at h
    cases h
    exact ⟨rfl, fun _ _ => rfl⟩
  · rw [exec_reserved7] at h
    cases h
    exact ⟨rfl, fun _ _ => rfl⟩
  · rw [exec_reserved8F] at h
    cases h
    exact ⟨rfl, fun _ _ => rfl⟩

/-! ### INIT, ENABLE and DISABLE -/

/-- All of DISABLE: the timers stopped, then every line inactive (43 R226). -/
theorem disable_eq (s : State) :
    portAll disableActions s = { s with
      run := false, anode := 0, boost := false,
      out := s.out ++ [.port .timersStop] ++ anodesOffTrace ++ [.port (.boost false)] } := by
  rw [disableActions_eq, portAll_cons, portAll_enableMakeSafe]
  rfl

/-- Settles O20: the equation of each of the three commands. -/
theorem frameOfLifecycleCommands : Obligations.FrameOfLifecycleCommands := by
  refine fun s t => ⟨fun h => ?_, fun h => ?_, fun h => ?_⟩
  · rw [exec_init, enable_eq] at h
    cases h
    rfl
  · rw [exec_enable, enable_eq] at h
    cases h
    rfl
  · rw [exec_disable, disable_eq] at h
    cases h
    exact ⟨rfl, fun _ _ => rfl⟩

/-- Settles O22: ENABLE's equation shows nothing of the state before it but what INIT leaves alone. -/
theorem initTwiceIsInit : Obligations.InitTwiceIsInit := by
  refine fun s => ⟨_, _, exec_init s, exec_init _, ?_⟩
  rw [enable_eq { s with initialized := true }, enable_eq]

/-! ### The pending micro-writes over a command -/

@[simp] theorem enable_pending (s : State) : (enable s).pending = s.pending := by
  rw [enable_eq]

theorem submit_pending_cases (bd : Build) (ms : List MicroWrite) (s : State) :
    (submit bd ms s).pending = s.pending ∨ (bd.atomic = false ∧ (submit bd ms s).pending = ms) := by
  cases ha : bd.atomic with
  | true => exact .inl (submit_pending_of_atomic ha ms s)
  | false => exact .inr ⟨rfl, by rw [submit_of_not_atomic ha]⟩

/-- The micro-write lists that a colour command hands to the engine (41_color_store R151, R157). -/
inductive ColourWrites (bd : Build) : List MicroWrite → Prop
  | pixel (p : Pixel) (r g b : Byte) : ColourWrites bd (pixelWrites bd p r g b)
  | all (r g b : Byte) : ColourWrites bd (allWrites bd r g b)

/-- A command leaves the pending set alone, or is a colour command on a build that leaves the writes to the ENGINE. -/
theorem exec_pending {i : Instr} {s t : State} (h : exec i s = .next t) :
    t.pending = s.pending ∨ (Config.build.atomic = false ∧ ColourWrites Config.build t.pending) := by
  cases i with
  | setColor pix r g b =>
    rw [exec_setColor] at h
    cases h
    rcases pixelField_cases pix with ⟨p, hp⟩ | hp
    · rw [setColor_of_toNat_eq hp]
      exact (submit_pending_cases ..).imp_right fun ⟨ha, he⟩ => ⟨ha, by rw [he]; exact .pixel p r g b⟩
    · exact .inl (by rw [setColor_of_ge hp])
  | setAll r g b =>
    rw [exec_setAll] at h
    cases h
    exact (submit_pending_cases ..).imp_right fun ⟨ha, he⟩ => ⟨ha, by rw [setAll, he]; exact .all r g b⟩
  | nop | init | enable | disable | clrStatus | reserved7 | reserved8F =>
    cases h
    exact .inl (by simp)

/-- A colour command's micro-writes name different cells. -/
theorem ColourWrites.nodup {bd : Build} {ms : List MicroWrite} (h : ColourWrites bd ms) :
    (ms.map fun m => (m.pix, m.ch)).Nodup := by
  cases h with
  | pixel p r g b => simp [pixelWrites]
  | all r g b =>
    have hkeys : ((allWrites bd r g b).map fun m => (m.pix, m.ch)) =
        pixels.flatMap fun p => [(p, .red), (p, .green), (p, .blue)] := rfl
    rw [hkeys]
    decide

/-! ### The pending micro-writes over a step -/

@[simp] theorem overrunRecord_pending (late : Bool) (s : State) : (overrunRecord late s).pending = s.pending := by
  cases late <;> simp

@[simp] theorem advance_pending (bd : Build) (i : Pixel) (s : State) : (advance bd i s).pending = s.pending := by
  rw [advance_only_scan_frame]

theorem boundary_pending {bd : Build} {late : Bool} {s t : State} (h : boundary bd late s = .next t) :
    t.pending = s.pending := by
  obtain ⟨i, as, -, -, -, rfl⟩ := (boundary_next _ _ _ _).mp h
  simp

/-- Over a step micro-writes only leave the pending set, or a colour command's become it. -/
theorem step_pending {s t : State} (h : step s = .next t) :
    t.pending.Sublist s.pending ∨ (Config.build.atomic = false ∧ ColourWrites Config.build t.pending) := by
  rcases step_cases h with ⟨i, q, -, -, he⟩ | ⟨-, -, hq⟩ | ⟨late, -, -, ht⟩
  · exact (exec_pending he).imp_left fun hp => by simp [hp]
  · refine .inl ?_
    rcases hq with ⟨v, q, -, -, rfl⟩ | ⟨v, q, -, -, rfl⟩ | ⟨q, rfl⟩ | ⟨k, -, rfl⟩
    · simp
    · simp
    · simp
    · simpa using engineStep_pending_sublist k (takeMove s)
  · exact .inl (by simp [boundary_pending ht])

/-- Settles O51: the pending set over a step is part of the old one or a colour command's. -/
theorem pendingMicroWritesStayLegal : Obligations.PendingMicroWritesStayLegal := by
  rintro s t ⟨hd, hnone⟩ h
  rcases step_pending h with hsub | ⟨ha, hms⟩
  · exact ⟨(hsub.map _).nodup hd, fun ha => List.sublist_nil.mp (hnone ha ▸ hsub)⟩
  · exact ⟨hms.nodup, fun ha' => by simp [ha] at ha'⟩

/-! ### Where a step stops -/

/-- A boundary completes exactly from a legal scan position (42 R175, R179). -/
theorem boundary_completes_iff (bd : Build) (late : Bool) (s : State) :
    s.cur.toNat < 6 ∧ s.phase.toNat < phaseCount bd ∧ s.prev.toNat < 6 ↔ ∃ t, boundary bd late s = .next t := by
  constructor
  · rintro ⟨hc, hf, hp⟩
    exact boundary_completes late hc hf hp
  · rintro ⟨t, ht⟩
    obtain ⟨i, as, hc, hp, ha, -⟩ := (boundary_next _ _ _ _).mp ht
    have hf : decide (s.phase.toNat < phaseCount bd) = true := by
      rw [← phaseActions_isSome bd s.phase i s.store, ha, Option.isSome_some]
    exact ⟨hc ▸ i.isLt, of_decide_eq_true hf, hp⟩

theorem tick_next_or_illegalScan (bd : Build) (s : State) :
    (∃ t, tick bd s = .next t) ∨ tick bd s = .fault .illegalScan := by
  unfold tick
  split
  · exact .inr rfl
  · split
    · exact .inr rfl
    · exact .inl ⟨_, rfl⟩

theorem boundary_next_or_illegalScan (bd : Build) (late : Bool) (s : State) :
    (∃ t, boundary bd late s = .next t) ∨ boundary bd late s = .fault .illegalScan :=
  tick_next_or_illegalScan bd _

theorem portStep_ne_refused (bd : Build) (late : Bool) (s : State) (r : Refusal) :
    portStep bd late s ≠ .refused r := by
  unfold portStep
  split
  · rcases boundary_next_or_illegalScan bd late s with ⟨t, ht⟩ | hf
    · simp [ht]
    · simp [hf]
  · simp

theorem hostStep_ne_refused (u : State) (r : Refusal) : hostStep u ≠ .refused r := by
  cases hq : u.hostQ with
  | nil => simp [hostStep_of_no_access hq]
  | cons a q =>
    cases ha : a.admitted with
    | true =>
      obtain ⟨t, ht⟩ := hostStep_of_admitted_completes hq ha
      simp [ht]
    | false => simp [hostStep_of_not_admitted hq ha]

theorem step_ne_refused (s : State) (r : Refusal) : step s ≠ .refused r := by
  rw [step_eq]
  cases nextMove s with
  | host => exact hostStep_ne_refused _ r
  | engine k => simp [runMove]
  | port late => exact portStep_ne_refused _ late _ r
  | issue a => simp [runMove]

/-- Settles O44: the two outcomes of a boundary, every command's outcome, and the two faults of a step. -/
theorem stepsStopOnlyWhereTheSpecSays : Obligations.StepsStopOnlyWhereTheSpecSays := by
  refine ⟨fun bd late s => ⟨boundary_completes_iff bd late s, boundary_next_or_illegalScan bd late s⟩, exec_next,
    fun s => ⟨step_ne_refused s, fun f h => ?_⟩⟩
  rcases step_fault h with ⟨-, a, -, -, -, hf⟩ | ⟨hb, hf⟩
  · exact .inl ⟨a.off, hf⟩
  · exact .inr ⟨hf, hb⟩

end Sys2Proof.Machine
end

section
/-! Proofs about the port actions of the phases (42_scan_scheduler R194, R195): which of them activates a line, and that
the lines are safe after every one of them (10_state R57). -/

namespace Sys2Proof.Machine

/-! ### The actions of a phase, by policy -/

theorem phaseActions_of_fivePhase {bd : Build} {f : BitVec 3} {i : Pixel} {d : Store} {as : List PortAction}
    (hpol : bd.policy = .fivePhase) (h : phaseActions bd f i d = some as) :
    (f = 0 ∧ as = preCharge i d) ∨ (f = 1 ∧ as = settle i d) ∨ (f = 2 ∧ as = showBlue i d) ∨
      (f = 3 ∧ as = showRed i d) ∨ (f = 4 ∧ as = showGreen) := by
  simp only [phaseActions, hpol] at h
  unfold fivePhase at h
  split at h <;> cases h <;> simp

theorem phaseActions_of_threeStage {bd : Build} {f : BitVec 3} {i : Pixel} {d : Store} {as : List PortAction}
    (hpol : bd.policy = .threeStage) (h : phaseActions bd f i d = some as) :
    (f = 0 ∧ as = deactivateAndDecide i d) ∨ (f = 1 ∧ as = activateCurrent i) ∨
      (f = 2 ∧ as = preloadNext i d) := by
  simp only [phaseActions, hpol] at h
  unfold threeStage at h
  split at h <;> cases h <;> simp

/-! ### Which action activates a line -/

/-- The action makes an anode or the boost sink active. -/
def PortAction.activates : PortAction → Bool
  | .anodeSet _ on => on
  | .boost on => on
  | .compare _ _ => false
  | .timersStart => false
  | .timersStop => false

/-- No action of the list activates a line. -/
abbrev Quiet (as : List PortAction) : Prop := ∀ a ∈ as, a.activates = false

theorem Quiet.append {as bs : List PortAction} (ha : Quiet as) (hb : Quiet bs) : Quiet (as ++ bs) :=
  List.forall_mem_append.mpr ⟨ha, hb⟩

theorem quiet_nil : Quiet [] := fun _ h => nomatch h

theorem quiet_allAnodesOff : Quiet allAnodesOff := by decide

theorem quiet_boostOff : Quiet [.boost false] := by decide

theorem quiet_compareAll (r g b : Byte) : Quiet (compareAll r g b) := by
  simp [Quiet, compareAll, PortAction.activates]

/-- A phase activates nothing, or the boost sink right after `AllAnodesOff` where the pixel's Blue is on, or the pixel's
anode right after the boost sink's release and `AllAnodesOff`. -/
inductive PhaseShape (i : Pixel) (d : Store) : List PortAction → Prop
  | quiet {as : List PortAction} (h : Quiet as) : PhaseShape i d as
  | boost {post : List PortAction} (hblue : (d[i]).b ≠ 255) (h : Quiet post) :
      PhaseShape i d (allAnodesOff ++ .boost true :: post)
  | anode {post : List PortAction} (h : Quiet post) :
      PhaseShape i d ((.boost false :: allAnodesOff) ++ .anodeSet i true :: post)

/-- The start of both policies' phase 0: `AllAnodesOff`, then the boost decision. -/
theorem phaseShape_boostIfBlue (i : Pixel) (d : Store) {post : List PortAction} (h : Quiet post) :
    PhaseShape i d (allAnodesOff ++ boostIfBlue i d ++ post) := by
  unfold boostIfBlue
  by_cases hblue : (d[i]).b = 255
  · rw [if_pos hblue, List.append_nil]
    exact .quiet (quiet_allAnodesOff.append h)
  · rw [if_neg hblue, List.append_assoc]
    exact .boost hblue h

theorem phaseActions_shape {bd : Build} {f : BitVec 3} {i : Pixel} {d : Store} {as : List PortAction}
    (h : phaseActions bd f i d = some as) : PhaseShape i d as := by
  cases hpol : bd.policy with
  | fivePhase =>
    rcases phaseActions_of_fivePhase hpol h with ⟨-, rfl⟩ | ⟨-, rfl⟩ | ⟨-, rfl⟩ | ⟨-, rfl⟩ | ⟨-, rfl⟩
    · exact phaseShape_boostIfBlue i d (quiet_compareAll _ _ _)
    · exact .quiet (quiet_boostOff.append (quiet_compareAll _ _ _))
    · exact .anode (quiet_compareAll _ _ _)
    · exact .quiet (quiet_compareAll _ _ _)
    · exact .quiet (quiet_compareAll _ _ _)
  | threeStage =>
    rcases phaseActions_of_threeStage hpol h with ⟨-, rfl⟩ | ⟨-, rfl⟩ | ⟨-, rfl⟩
    · simpa [deactivateAndDecide] using phaseShape_boostIfBlue i d quiet_nil
    · exact .anode quiet_nil
    · exact .quiet (quiet_compareAll _ _ _)

/-! ### Activations come after `AllAnodesOff` (R194, R195) -/

/-- A quiet list has no place for an action that activates a line. -/
theorem Quiet.ne_append_cons {as before after : List PortAction} {a : PortAction} (h : Quiet as)
    (ha : a.activates = true) : as ≠ before ++ a :: after := by
  rintro rfl
  simp [h a (by simp)] at ha

/-- Between quiet lists, the one action that activates a line stands at one place only. -/
theorem eq_of_append_cons_eq {pre post before after : List PortAction} {x a : PortAction} (hpre : Quiet pre)
    (hpost : Quiet post) (ha : a.activates = true) (h : pre ++ x :: post = before ++ a :: after) :
    x = a ∧ before = pre := by
  rcases List.append_eq_append_iff.mp h with ⟨ms, hb, hx⟩ | ⟨ms, hp, hx⟩
  · cases ms with
    | nil =>
      rw [List.nil_append] at hx
      exact ⟨(List.cons.inj hx).1, by simpa using hb⟩
    | cons m ms => exact absurd (List.cons.inj hx).2 (hpost.ne_append_cons ha)
  · cases ms with
    | nil =>
      rw [List.nil_append] at hx
      exact ⟨(List.cons.inj hx).1.symm, by simpa using hp.symm⟩
    | cons m ms =>
      obtain rfl : a = m := (List.cons.inj hx).1
      exact absurd hp (hpre.ne_append_cons ha)

/-- Settles O46: each shape of a phase has at most one activation, at a place that the shape shows. -/
theorem activationsFollowAllAnodesOff : Obligations.ActivationsFollowAllAnodesOff := by
  intro bd f i d as h before after
  cases phaseActions_shape h with
  | quiet hq =>
    exact ⟨fun p he => absurd he (hq.ne_append_cons rfl), fun he => absurd he (hq.ne_append_cons rfl)⟩
  | boost hblue hpost =>
    refine ⟨fun p he => ?_, fun he => ?_⟩
    · cases (eq_of_append_cons_eq quiet_allAnodesOff hpost rfl he).1
    · obtain ⟨-, rfl⟩ := eq_of_append_cons_eq quiet_allAnodesOff hpost rfl he
      exact ⟨hblue, [], rfl⟩
  | anode hpost =>
    have hpre : Quiet (.boost false :: allAnodesOff) := quiet_boostOff.append quiet_allAnodesOff
    refine ⟨fun p he => ?_, fun he => ?_⟩
    · obtain ⟨hx, rfl⟩ := eq_of_append_cons_eq hpre hpost rfl he
      cases hx
      exact ⟨rfl, by decide, by decide, [.boost false], rfl⟩
    · cases (eq_of_append_cons_eq hpre hpost rfl he).1

/-! ### Safe lines after every action (10_state R57) -/

/-- The lines are safe at the start and after every action of the list. -/
def SafeThroughout (as : List PortAction) (s : State) : Prop := ∀ n, LinesSafe (portAll (as.take n) s)

theorem safeThroughout_nil {s : State} (h : LinesSafe s) : SafeThroughout [] s := fun n => by simpa using h

theorem safeThroughout_cons {a : PortAction} {as : List PortAction} {s : State} (h : LinesSafe s)
    (has : SafeThroughout as (port a s)) : SafeThroughout (a :: as) s
  | 0 => h
  | n + 1 => has n

theorem SafeThroughout.final {as : List PortAction} {s : State} (h : SafeThroughout as s) :
    LinesSafe (portAll as s) := by
  have hn := h as.length
  rwa [List.take_length] at hn

theorem SafeThroughout.append {as bs : List PortAction} {s : State} (ha : SafeThroughout as s)
    (hb : SafeThroughout bs (portAll as s)) : SafeThroughout (as ++ bs) s := by
  intro n
  rw [List.take_append, portAll_append]
  rcases Nat.le_total n as.length with h | h
  · rw [Nat.sub_eq_zero_of_le h]
    exact ha n
  · rw [List.take_of_length_le h]
    exact hb _

/-- Clearing a line leaves no other active that was not. -/
theorem getLsbD_putAnode_false (v : BitVec 6) (p q : Pixel) (h : (putAnode v p false).getLsbD q.val = true) :
    v.getLsbD q.val = true := by
  rw [putAnode, if_neg Bool.false_ne_true, BitVec.getLsbD_and, Bool.and_eq_true] at h
  exact h.1

theorem putAnode_zero_false (p : Pixel) : putAnode 0 p false = 0 := by simp [putAnode]

/-- An action that activates nothing keeps the lines safe. -/
theorem linesSafe_port_of_quiet {a : PortAction} {s : State} (ha : a.activates = false) (h : LinesSafe s) :
    LinesSafe (port a s) := by
  obtain ⟨hone, hboost⟩ := h
  cases a with
  | compare c v => exact ⟨hone, hboost⟩
  | timersStart => exact ⟨hone, hboost⟩
  | timersStop => exact ⟨hone, hboost⟩
  | boost on =>
    obtain rfl : on = false := ha
    exact ⟨hone, fun hb => nomatch hb⟩
  | anodeSet p on =>
    obtain rfl : on = false := ha
    refine ⟨fun q r hq hr => hone q r (getLsbD_putAnode_false _ p q hq) (getLsbD_putAnode_false _ p r hr),
      fun hb => ?_⟩
    show putAnode s.anode p false = 0
    rw [hboost hb, putAnode_zero_false]

theorem safeThroughout_of_quiet {as : List PortAction} {s : State} (has : Quiet as) (h : LinesSafe s) :
    SafeThroughout as s := by
  induction as generalizing s with
  | nil => exact safeThroughout_nil h
  | cons a as ih =>
    obtain ⟨ha, has⟩ := List.forall_mem_cons.mp has
    exact safeThroughout_cons h (ih has (linesSafe_port_of_quiet ha h))

theorem oneAnode_zero : OneAnode 0 := by decide

theorem oneAnode_shift : ∀ i : Pixel, OneAnode (1#6 <<< i.val) := by decide

/-- The boost sink may go active where no anode is. -/
theorem linesSafe_port_boostOn {s : State} (h : s.anode = 0) : LinesSafe (port (.boost true) s) :=
  ⟨by rw [port_setBoost, h]; exact oneAnode_zero, fun _ => h⟩

/-- An anode may go active where no line is. -/
theorem linesSafe_port_anodeOn {s : State} (i : Pixel) (ha : s.anode = 0) (hb : s.boost = false) :
    LinesSafe (port (.anodeSet i true) s) := by
  rw [port_activateAnode i s ha]
  exact ⟨oneAnode_shift i, fun h => by simp [hb] at h⟩

theorem PhaseShape.safeThroughout {i : Pixel} {d : Store} {as : List PortAction} (h : PhaseShape i d as) {s : State}
    (hs : LinesSafe s) : SafeThroughout as s := by
  cases h with
  | quiet hq => exact safeThroughout_of_quiet hq hs
  | boost _ hpost =>
    have hoff := safeThroughout_of_quiet quiet_allAnodesOff hs
    refine hoff.append (safeThroughout_cons hoff.final (safeThroughout_of_quiet hpost (linesSafe_port_boostOn ?_)))
    rw [portAll_allAnodesOff]
  | anode hpost =>
    have hoff := safeThroughout_of_quiet (quiet_boostOff.append quiet_allAnodesOff) hs
    refine hoff.append (safeThroughout_cons hoff.final
      (safeThroughout_of_quiet hpost (linesSafe_port_anodeOn i ?_ ?_)))
    · rw [portAll_append, portAll_allAnodesOff]
    · rw [portAll_append, portAll_allAnodesOff]; rfl

/-- Settles O45: the shapes of a phase, and the three quiet lists of ENABLE and DISABLE. -/
theorem everyPortActionKeepsTheLinesSafe : Obligations.EveryPortActionKeepsTheLinesSafe :=
  fun _ hs => ⟨fun _ _ _ _ _ h => (phaseActions_shape h).safeThroughout hs,
    safeThroughout_of_quiet (by decide) hs, safeThroughout_of_quiet (by decide) hs,
    safeThroughout_of_quiet (by decide) hs⟩

end Sys2Proof.Machine
end

section
/-! Proofs about the scan position, the lines and the run bit over a step: one inversion of a step for all three, and
the invariants of 10_state R56, R57 and of the display schedules (42 R185, R191) from it. -/

namespace Sys2Proof.Machine

/-! ### What a command does to the scan position, the lines and the run bit -/

/-- The scan position is unchanged. -/
structure SameScan (s t : State) : Prop where
  cur   : t.cur = s.cur
  phase : t.phase = s.phase
  prev  : t.prev = s.prev

/-- The lines and the run bit are unchanged. -/
structure SameLines (s t : State) : Prop where
  run   : t.run = s.run
  anode : t.anode = s.anode
  boost : t.boost = s.boost

/-- The block as ENABLE leaves it: running at the first scan position, every line inactive (43 R222). -/
structure Restarted (t : State) : Prop where
  run   : t.run = true
  anode : t.anode = 0
  boost : t.boost = false
  cur   : t.cur = 0
  phase : t.phase = 0
  prev  : t.prev = 5

/-- The block as DISABLE leaves it: stopped where it stood, every line inactive (43 R226). -/
structure Stopped (s t : State) : Prop extends SameScan s t where
  run   : t.run = false
  anode : t.anode = 0
  boost : t.boost = false

theorem restarted_enable (s : State) : Restarted (enable s) := by
  rw [enable_eq]
  exact ⟨rfl, rfl, rfl, rfl, rfl, rfl⟩

theorem stopped_disable (s : State) : Stopped s (portAll disableActions s) := by
  rw [disable_eq]
  exact ⟨⟨rfl, rfl, rfl⟩, rfl, rfl, rfl⟩

theorem submit_same (bd : Build) (ms : List MicroWrite) (s : State) :
    SameScan s (submit bd ms s) ∧ SameLines s (submit bd ms s) := by
  rw [submit_only_store_pending]
  exact ⟨⟨rfl, rfl, rfl⟩, ⟨rfl, rfl, rfl⟩⟩

theorem setColor_same (bd : Build) (pix : BitVec 4) (r g b : Byte) (s : State) :
    SameScan s (setColor bd pix r g b s) ∧ SameLines s (setColor bd pix r g b s) := by
  rw [setColor_only_store_pending_errPixel]
  exact ⟨⟨rfl, rfl, rfl⟩, ⟨rfl, rfl, rfl⟩⟩

/-- ENABLE and INIT restart the block, DISABLE stops it, and no other command touches scan, lines or run bit. -/
theorem exec_scan_lines {i : Instr} {s t : State} (h : exec i s = .next t) :
    ((i = .enable ∨ i = .init) ∧ Restarted t) ∨ (i = .disable ∧ Stopped s t) ∨ (SameScan s t ∧ SameLines s t) := by
  cases i with
  | init => cases h; exact .inl ⟨.inr rfl, restarted_enable _⟩
  | enable => cases h; exact .inl ⟨.inl rfl, restarted_enable s⟩
  | disable => cases h; exact .inr (.inl ⟨rfl, stopped_disable s⟩)
  | setColor pix r g b => cases h; exact .inr (.inr (setColor_same Config.build pix r g b s))
  | setAll r g b => cases h; exact .inr (.inr (submit_same Config.build _ s))
  | nop | clrStatus | reserved7 | reserved8F => cases h; exact .inr (.inr ⟨⟨rfl, rfl, rfl⟩, ⟨rfl, rfl, rfl⟩⟩)

/-! ### What a step does to them -/

theorem engineStep_same (k : Nat) (s : State) : SameScan s (engineStep k s) ∧ SameLines s (engineStep k s) := by
  rw [engineStep_only_store_pending]
  exact ⟨⟨rfl, rfl, rfl⟩, ⟨rfl, rfl, rfl⟩⟩

/-- The state a HOST step starts from, with the move and the access taken. -/
theorem takeMove_hostQ_same (s : State) (q : List HostAccess) :
    SameScan s { takeMove s with hostQ := q } ∧ SameLines s { takeMove s with hostQ := q } :=
  ⟨⟨takeMove_cur s, takeMove_phase s, takeMove_prev s⟩, ⟨takeMove_run s, takeMove_anode s, takeMove_boost s⟩⟩

theorem SameScan.trans {s t u : State} (h : SameScan s t) (h' : SameScan t u) : SameScan s u :=
  ⟨h'.cur.trans h.cur, h'.phase.trans h.phase, h'.prev.trans h.prev⟩

theorem SameLines.trans {s t u : State} (h : SameLines s t) (h' : SameLines t u) : SameLines s u :=
  ⟨h'.run.trans h.run, h'.anode.trans h.anode, h'.boost.trans h.boost⟩

/-- A step delivers a boundary, restarts or stops the block, or touches neither scan nor lines nor run bit. -/
theorem step_scan_lines {s t : State} (h : step s = .next t) :
    (∃ late, boundaryOfStep s = some late ∧ boundary Config.build late (takeMove s) = .next t) ∨
    ((commandOfStep s = some .enable ∨ commandOfStep s = some .init) ∧ Restarted t) ∨
    (commandOfStep s = some .disable ∧ Stopped s t) ∨ (SameScan s t ∧ SameLines s t) := by
  rcases step_cases h with ⟨i, q, hc, -, he⟩ | ⟨-, -, hq⟩ | ⟨late, -, hb, ht⟩
  · obtain ⟨hscan, hlines⟩ := takeMove_hostQ_same s q
    rcases exec_scan_lines he with ⟨hi, hr⟩ | ⟨rfl, hstop⟩ | ⟨hscan', hlines'⟩
    · exact .inr (.inl ⟨by simpa [hc] using hi, hr⟩)
    · exact .inr (.inr (.inl ⟨hc, hscan.trans hstop.toSameScan, hstop.run, hstop.anode, hstop.boost⟩))
    · exact .inr (.inr (.inr ⟨hscan.trans hscan', hlines.trans hlines'⟩))
  · refine .inr (.inr (.inr ?_))
    rcases hq with ⟨v, q, -, -, rfl⟩ | ⟨v, q, -, -, rfl⟩ | ⟨q, rfl⟩ | ⟨k, -, rfl⟩
    · obtain ⟨hscan, hlines⟩ := takeMove_hostQ_same s q
      exact ⟨hscan.trans ⟨rfl, rfl, rfl⟩, hlines.trans ⟨rfl, rfl, rfl⟩⟩
    · obtain ⟨hscan, hlines⟩ := takeMove_hostQ_same s q
      exact ⟨hscan.trans ⟨rfl, rfl, rfl⟩, hlines.trans ⟨rfl, rfl, rfl⟩⟩
    · exact takeMove_hostQ_same s q
    · obtain ⟨hscan, hlines⟩ := takeMove_hostQ_same s (takeMove s).hostQ
      obtain ⟨hscan', hlines'⟩ := engineStep_same k (takeMove s)
      exact ⟨hscan.trans hscan', hlines.trans hlines'⟩
  · exact .inl ⟨late, hb, ht⟩

/-- A boundary is delivered only while the block runs (42 R171). -/
theorem run_of_boundaryOfStep {s : State} {late : Bool} (h : boundaryOfStep s = some late) : s.run = true :=
  ((boundaryOfStep_eq_some s late).mp h).2

/-! ### The scan position stays legal (10_state R56) -/

/-- A boundary starts from a phase below N: the last, or one before it. -/
theorem boundary_phase_cases {bd : Build} {late : Bool} {s t : State} (h : boundary bd late s = .next t) :
    s.phase.toNat < phaseCount bd - 1 ∨ s.phase.toNat = phaseCount bd - 1 := by
  obtain ⟨-, hf, -⟩ := (boundary_completes_iff bd late s).mpr ⟨t, h⟩
  omega

theorem boundary_scanLegal {bd : Build} {late : Bool} {s t : State} (hs : ScanLegal bd s)
    (h : boundary bd late s = .next t) : ScanLegal bd t := by
  obtain ⟨hc, hf, hp, hpc⟩ := hs
  rcases boundary_phase_cases h with hlt | hlast
  · obtain ⟨hphase, hcur, hprev, -⟩ := boundary_of_phase_lt h hlt
    rw [ScanLegal, hcur, hprev, hphase]
    exact ⟨hc, by omega, hp, hpc⟩
  · obtain ⟨hphase, hprev, hcur, -⟩ := boundary_of_last_phase h hlast
    rw [ScanLegal, hcur, hprev, hphase]
    exact ⟨by omega, phaseCount_pos bd, hc, by omega⟩

/-- Settles O47: a boundary advances to a legal position, a restart sets one, and nothing else moves it. -/
theorem scanPositionStaysLegal : Obligations.ScanPositionStaysLegal := by
  intro s t hs h
  rcases step_scan_lines h with ⟨late, -, ht⟩ | ⟨-, hr⟩ | ⟨-, hstop⟩ | ⟨hscan, -⟩
  · exact boundary_scanLegal (by simpa [ScanLegal] using hs) ht
  · rw [ScanLegal, hr.cur, hr.phase, hr.prev]
    exact ⟨by decide, phaseCount_pos _, by decide, by decide⟩
  · rwa [ScanLegal, hstop.cur, hstop.phase, hstop.prev]
  · rwa [ScanLegal, hscan.cur, hscan.phase, hscan.prev]

/-! ### The lines of a boundary -/

@[simp] theorem overrunRecord_run (late : Bool) (s : State) : (overrunRecord late s).run = s.run := by
  cases late <;> simp

@[simp] theorem overrunRecord_anode (late : Bool) (s : State) : (overrunRecord late s).anode = s.anode := by
  cases late <;> simp

@[simp] theorem overrunRecord_boost (late : Bool) (s : State) : (overrunRecord late s).boost = s.boost := by
  cases late <;> simp

/-- What a boundary does to the lines, by its phase: off at phase 0, still off before the phase that activates the
current pixel's anode, that anode active from there on (42 R185, R191). -/
inductive LinesStep (bd : Build) (s t : State) : Prop
  | clear (hf : s.phase.toNat = 0) (ha : t.anode = 0)
  | settle (hf : 0 < s.phase.toNat) (hf' : s.phase.toNat + 1 < displayFrom bd) (ha : t.anode = s.anode)
      (hb : t.boost = false)
  | activate (hf : s.phase.toNat + 1 = displayFrom bd) (ha : t.anode = 1#6 <<< s.cur.toNat) (hb : t.boost = false)
  | hold (hf : displayFrom bd ≤ s.phase.toNat) (ha : t.anode = s.anode) (hb : t.boost = s.boost)

theorem displayFrom_of_fivePhase {bd : Build} (h : bd.policy = .fivePhase) : displayFrom bd = 3 := by
  simp [displayFrom, h]

theorem displayFrom_of_threeStage {bd : Build} (h : bd.policy = .threeStage) : displayFrom bd = 2 := by
  simp [displayFrom, h]

theorem boundary_lines {bd : Build} {late : Bool} {s t : State} (h : boundary bd late s = .next t) :
    t.run = s.run ∧ LinesStep bd s t := by
  obtain ⟨i, as, hc, hp, ha, -⟩ := (boundary_next _ _ _ _).mp h
  have hc' : (overrunRecord late (latch s)).cur.toNat = i.val := by simpa using hc
  have hp' : (overrunRecord late (latch s)).prev.toNat < 6 := by simpa using hp
  rw [boundary] at h
  cases hpol : bd.policy with
  | fivePhase =>
    have hd := displayFrom_of_fivePhase hpol
    rcases phaseActions_of_fivePhase hpol ha with ⟨hf, -⟩ | ⟨hf, -⟩ | ⟨hf, -⟩ | ⟨hf, -⟩ | ⟨hf, -⟩
    · rw [preChargeTick bd _ i hpol hc' hp' (by simpa using hf)] at h
      cases h
      exact ⟨by simp, .clear (by simp [hf]) rfl⟩
    · rw [settleTick bd _ i hpol hc' hp' (by simpa using hf)] at h
      cases h
      exact ⟨by simp, .settle (by simp [hf]) (by simp [hf, hd]) (by simp) rfl⟩
    · rw [showBlueTick bd _ i hpol hc' hp' (by simpa using hf)] at h
      cases h
      exact ⟨by simp, .activate (by simp [hf, hd]) (by rw [hc]) rfl⟩
    · rw [showRedTick bd _ i hpol hc' hp' (by simpa using hf)] at h
      cases h
      exact ⟨by simp, .hold (by simp [hf, hd]) (by simp) (by simp)⟩
    · rw [showGreenTick bd _ i hpol hc' hp' (by simpa using hf)] at h
      cases h
      exact ⟨by simp, .hold (by simp [hf, hd]) (by simp) (by simp)⟩
  | threeStage =>
    have hd := displayFrom_of_threeStage hpol
    rcases phaseActions_of_threeStage hpol ha with ⟨hf, -⟩ | ⟨hf, -⟩ | ⟨hf, -⟩
    · rw [deactivateAndDecideTick bd _ i hpol hc' hp' (by simpa using hf)] at h
      cases h
      exact ⟨by simp, .clear (by simp [hf]) rfl⟩
    · rw [activateCurrentTick bd _ i hpol hc' hp' (by simpa using hf)] at h
      cases h
      exact ⟨by simp, .activate (by simp [hf, hd]) (by rw [hc]) rfl⟩
    · rw [preloadNextTick bd _ i (nextPixel i) hpol hc' hp' (by simpa using hf) rfl] at h
      cases h
      exact ⟨by simp, .hold (by simp [hf, hd]) (by simp) (by simp)⟩

/-! ### The scan position and the run bit have one owner (20_memory R83) -/

theorem step_run_of_boundary {s t : State} {late : Bool} (ht : boundary Config.build late (takeMove s) = .next t) :
    t.run = s.run := by
  simpa using (boundary_lines ht).1

/-- Settles O58: the four kinds of step, with their command. -/
theorem scanAndRunHaveOneOwner : Obligations.ScanAndRunHaveOneOwner := by
  intro s t h
  rcases step_scan_lines h with ⟨late, hb, ht⟩ | ⟨hc, hr⟩ | ⟨hc, hstop⟩ | ⟨hscan, hlines⟩
  · have hrun := step_run_of_boundary ht
    exact ⟨fun h0 h1 => by simp [hrun, h0] at h1, fun h1 h0 => by simp [hrun, h1] at h0, fun hn => by simp [hb] at hn⟩
  · exact ⟨fun _ _ => hc, fun _ h0 => by simp [hr.run] at h0, fun _ => .inr ⟨hc, hr.cur, hr.phase, hr.prev⟩⟩
  · exact ⟨fun _ h1 => by simp [hstop.run] at h1, fun _ _ => hc,
      fun _ => .inl ⟨hstop.cur, hstop.phase, hstop.prev⟩⟩
  · have hrun := hlines.run
    exact ⟨fun h0 h1 => by simp [hrun, h0] at h1, fun h1 h0 => by simp [hrun, h1] at h0,
      fun _ => .inl ⟨hscan.cur, hscan.phase, hscan.prev⟩⟩

/-! ### The lines stay safe, and dark while disabled (10_state R57, 43 R228) -/

@[simp] theorem advance_anode (bd : Build) (i : Pixel) (s : State) : (advance bd i s).anode = s.anode := by
  rw [advance_only_scan_frame]

@[simp] theorem advance_boost (bd : Build) (i : Pixel) (s : State) : (advance bd i s).boost = s.boost := by
  rw [advance_only_scan_frame]

/-- The lines are safe after a boundary, as they are after each of its port actions. -/
theorem boundary_linesSafe {bd : Build} {late : Bool} {s t : State} (hs : LinesSafe s)
    (h : boundary bd late s = .next t) : LinesSafe t := by
  obtain ⟨i, as, -, -, ha, rfl⟩ := (boundary_next _ _ _ _).mp h
  have hstart : LinesSafe (overrunRecord late (latch s)) := by simpa [LinesSafe] using hs
  simpa [LinesSafe] using ((phaseActions_shape ha).safeThroughout hstart).final

theorem linesSafe_of_off {t : State} (ha : t.anode = 0) (hb : t.boost = false) : LinesSafe t := by
  rw [LinesSafe, ha, hb]
  exact ⟨oneAnode_zero, fun h => nomatch h⟩

/-- Settles O48: a boundary is safe by its actions and runs, and a restart or a stop leaves every line inactive. -/
theorem linesStaySafeAndDark : Obligations.LinesStaySafeAndDark := by
  intro s t hs hdark h
  rcases step_scan_lines h with ⟨late, hb, ht⟩ | ⟨-, hr⟩ | ⟨-, hstop⟩ | ⟨-, hlines⟩
  · refine ⟨boundary_linesSafe (by simpa [LinesSafe] using hs) ht, fun h0 => ?_⟩
    simp [step_run_of_boundary ht, run_of_boundaryOfStep hb] at h0
  · exact ⟨linesSafe_of_off hr.anode hr.boost, fun _ => ⟨hr.anode, hr.boost⟩⟩
  · exact ⟨linesSafe_of_off hstop.anode hstop.boost, fun _ => ⟨hstop.anode, hstop.boost⟩⟩
  · rw [LinesSafe, DarkWhenDisabled, hlines.run, hlines.anode, hlines.boost]
    exact ⟨hs, hdark⟩

/-! ### The lines follow the scan (42 R185, R191) -/

theorem two_le_displayFrom (bd : Build) : 2 ≤ displayFrom bd := by
  unfold displayFrom
  split <;> decide

/-- The last phase of a pixel displays it. -/
theorem displayFrom_add_one_le (bd : Build) : displayFrom bd + 1 ≤ phaseCount bd := by
  unfold displayFrom phaseCount
  split <;> simp_all

/-- A boundary takes the lines from where the phases done leave them to where one phase more does. -/
theorem boundary_linesFollowScan {bd : Build} {late : Bool} {s t : State} (hrun : s.run = true)
    (hs : LinesFollowScan bd s) (h : boundary bd late s = .next t) : LinesFollowScan bd t := by
  obtain ⟨hboost, -, hoff, hon⟩ := hs hrun
  obtain ⟨-, hlines⟩ := boundary_lines h
  have hphase1 : ∀ v : BitVec 3, v = 1 ↔ v.toNat = 1 := fun v => BitVec.toNat_inj.symm
  have hphase0 : ∀ v : BitVec 3, v = 0 ↔ v.toNat = 0 := fun v => BitVec.toNat_inj.symm
  have hd := displayFrom_add_one_le bd
  have hd2 := two_le_displayFrom bd
  simp only [hphase1] at hboost
  have hquiet : displayFrom bd ≤ s.phase.toNat → s.boost = false := fun hf => by
    by_contra hb
    have := hboost (by simpa using hb)
    omega
  intro _
  simp only [hphase0, hphase1]
  rcases boundary_phase_cases h with hlt | hlast
  · obtain ⟨hphase, hcur, hprev, -⟩ := boundary_of_phase_lt h hlt
    rw [hphase, hcur, hprev]
    cases hlines with
    | clear hf ha => exact ⟨by omega, by omega, fun _ _ => ha, by omega⟩
    | settle hf hf' ha hb =>
      exact ⟨by simp [hb], by omega, fun _ _ => ha.trans (hoff hf (by omega)), by omega⟩
    | activate hf ha hb => exact ⟨by simp [hb], by omega, by omega, fun _ => ha⟩
    | hold hf ha hb =>
      exact ⟨by simp [hb, hquiet hf], by omega, by omega, fun _ => ha.trans (hon hf)⟩
  · obtain ⟨hphase, hprev, hcur, -⟩ := boundary_of_last_phase h hlast
    rw [hphase, hprev]
    cases hlines with
    | clear hf ha => omega
    | settle hf hf' ha hb => omega
    | activate hf ha hb => omega
    | hold hf ha hb =>
      exact ⟨by simp [hb, hquiet hf], fun _ => .inr (ha.trans (hon hf)), fun h0 => absurd h0 (by decide),
        fun h0 => absurd h0 (by simp; omega)⟩

theorem linesFollowScan_of_off {bd : Build} {t : State} (ha : t.anode = 0) (hb : t.boost = false)
    (hf : t.phase = 0) : LinesFollowScan bd t := by
  have hd := two_le_displayFrom bd
  intro _
  rw [ha, hb, hf]
  exact ⟨(nomatch ·), fun _ => .inl rfl, fun _ _ => rfl, fun h0 => absurd h0 (by simp; omega)⟩

/-- Settles O49: over a boundary by the phase it runs, and a restart leaves every line inactive at phase 0. -/
theorem linesFollowTheScan : Obligations.LinesFollowTheScan := by
  intro s t hs h
  rcases step_scan_lines h with ⟨late, hb, ht⟩ | ⟨-, hr⟩ | ⟨-, hstop⟩ | ⟨hscan, hlines⟩
  · have hrun : (takeMove s).run = true := by rw [takeMove_run, run_of_boundaryOfStep hb]
    exact boundary_linesFollowScan hrun (by simpa [LinesFollowScan] using hs) ht
  · exact linesFollowScan_of_off hr.anode hr.boost hr.phase
  · exact fun h1 => by simp [hstop.run] at h1
  · rwa [LinesFollowScan, hlines.run, hlines.anode, hlines.boost, hscan.cur, hscan.phase, hscan.prev]

end Sys2Proof.Machine
end

section
/-! Proofs about the values in flight: the pending micro-writes, the compare values and the store hold outputs of the
drive ROM (10_state R58). -/

namespace Sys2Proof.Machine

/-! ### What port actions leave in the compare buffers -/

theorem port_compare_cmpBuf (c : Channel) (v : Byte) (s : State) :
    (port (.compare c v) s).cmpBuf = s.cmpBuf.put c v := rfl

/-- A compare buffer keeps its value through a list of actions, or holds what one of them wrote. -/
theorem portAll_cmpBuf_cases (as : List PortAction) (s : State) (c : Channel) :
    (portAll as s).cmpBuf.get c = s.cmpBuf.get c ∨ .compare c ((portAll as s).cmpBuf.get c) ∈ as := by
  induction as generalizing s with
  | nil => exact .inl rfl
  | cons a as ih =>
    rw [portAll_cons]
    rcases ih (port a s) with h | h
    · rw [h]
      cases a with
      | compare c' v =>
        rw [port_compare_cmpBuf, Triple.get_put]
        by_cases hc : c = c'
        · rw [if_pos hc, hc]
          exact .inr List.mem_cons_self
        · exact .inl (if_neg hc)
      | anodeSet | boost | timersStart | timersStop => exact .inl rfl
    · exact .inr (List.mem_cons_of_mem _ h)

/-- The value is the off level, or one that the store holds for the channel. -/
def OffOrStored (d : Store) (c : Channel) (v : Byte) : Prop := v = 255 ∨ ∃ p : Pixel, v = (d[p]).get c

theorem mem_compareAll {c : Channel} {v r g b : Byte} :
    PortAction.compare c v ∈ compareAll r g b ↔ v = (Triple.mk r g b).get c := by
  cases c <;> simp [compareAll]

theorem compare_notMem_allAnodesOff (c : Channel) (v : Byte) : PortAction.compare c v ∉ allAnodesOff := by
  simp [allAnodesOff]

theorem compare_notMem_boostIfBlue (c : Channel) (v : Byte) (i : Pixel) (d : Store) :
    PortAction.compare c v ∉ boostIfBlue i d := by
  unfold boostIfBlue
  split <;> simp

/-- A phase writes to a compare buffer the off level or a level of the store (42 R180 to R190). -/
theorem phaseActions_compare {bd : Build} {f : BitVec 3} {i : Pixel} {d : Store} {as : List PortAction} {c : Channel}
    {v : Byte} (h : phaseActions bd f i d = some as) (hv : .compare c v ∈ as) : OffOrStored d c v := by
  cases hpol : bd.policy with
  | fivePhase =>
    rcases phaseActions_of_fivePhase hpol h with ⟨-, rfl⟩ | ⟨-, rfl⟩ | ⟨-, rfl⟩ | ⟨-, rfl⟩ | ⟨-, rfl⟩
    · have hval : v = Triple.off.get c := by
        simpa [preCharge, Triple.off, compare_notMem_allAnodesOff, compare_notMem_boostIfBlue, mem_compareAll] using hv
      cases c <;> exact .inl hval
    · have hval : v = (Triple.mk 255 255 (d[i]).b).get c := by simpa [settle, mem_compareAll] using hv
      cases c with
      | red | green => exact .inl hval
      | blue => exact .inr ⟨i, hval⟩
    · have hval : v = (Triple.mk (d[i]).r 255 255).get c := by
        simpa [showBlue, compare_notMem_allAnodesOff, mem_compareAll] using hv
      cases c with
      | red => exact .inr ⟨i, hval⟩
      | green | blue => exact .inl hval
    · have hval : v = (Triple.mk 255 (d[i]).g 255).get c := mem_compareAll.mp hv
      cases c with
      | green => exact .inr ⟨i, hval⟩
      | red | blue => exact .inl hval
    · have hval : v = Triple.off.get c := mem_compareAll.mp hv
      cases c <;> exact .inl hval
  | threeStage =>
    rcases phaseActions_of_threeStage hpol h with ⟨-, rfl⟩ | ⟨-, rfl⟩ | ⟨-, rfl⟩
    · simp [deactivateAndDecide, compare_notMem_allAnodesOff, compare_notMem_boostIfBlue] at hv
    · simp [activateCurrent, compare_notMem_allAnodesOff] at hv
    · exact .inr ⟨nextPixel i, mem_compareAll.mp hv⟩

/-! ### Every value is an output of the ROM (10_state R58) -/

theorem romValue_off (bd : Build) (c : Channel) : RomValue bd c 255 := ⟨0, rom_zero bd c⟩

@[simp] theorem overrunRecord_cmpBuf (late : Bool) (s : State) : (overrunRecord late s).cmpBuf = s.cmpBuf := by
  cases late <;> simp

@[simp] theorem advance_cmpBuf (bd : Build) (i : Pixel) (s : State) : (advance bd i s).cmpBuf = s.cmpBuf := by
  rw [advance_only_scan_frame]

@[simp] theorem advance_store (bd : Build) (i : Pixel) (s : State) : (advance bd i s).store = s.store := by
  rw [advance_only_scan_frame]

theorem boundary_store {bd : Build} {late : Bool} {s t : State} (h : boundary bd late s = .next t) :
    t.store = s.store := by
  obtain ⟨i, as, -, -, -, rfl⟩ := (boundary_next _ _ _ _).mp h
  simp

/-- After a boundary a compare buffer holds its old value, the off level, or a level of the store. -/
theorem boundary_cmpBuf_cases {bd : Build} {late : Bool} {s t : State} (h : boundary bd late s = .next t)
    (c : Channel) : t.cmpBuf.get c = s.cmpBuf.get c ∨ OffOrStored s.store c (t.cmpBuf.get c) := by
  obtain ⟨i, as, -, -, ha, rfl⟩ := (boundary_next _ _ _ _).mp h
  rw [advance_cmpBuf]
  exact (portAll_cmpBuf_cases as _ c).imp (fun h => by simpa using h) (phaseActions_compare ha)

theorem cell_writeCells_cases (ms : List MicroWrite) (s : State) (p : Pixel) (c : Channel) :
    cell (writeCells ms s) p c = cell s p c ∨ ∃ m ∈ ms, m.ch = c ∧ cell (writeCells ms s) p c = m.val := by
  induction ms generalizing s with
  | nil => exact .inl rfl
  | cons m ms ih =>
    rw [writeCells_cons]
    rcases ih (writeCell m s) with h | ⟨n, hn, hc, h⟩
    · rw [h, cell_writeCell]
      split
      next hm => exact .inr ⟨m, List.mem_cons_self, hm.2.symm, rfl⟩
      next => exact .inl rfl
    · exact .inr ⟨n, List.mem_cons_of_mem m hn, hc, h⟩

theorem pixelWrites_from_rom {bd : Build} {p : Pixel} {r g b : Byte} {m : MicroWrite}
    (h : m ∈ pixelWrites bd p r g b) : RomValue bd m.ch m.val := by
  simp only [pixelWrites, List.mem_cons, List.not_mem_nil, or_false] at h
  rcases h with rfl | rfl | rfl
  · exact ⟨r, rfl⟩
  · exact ⟨g, rfl⟩
  · exact ⟨b, rfl⟩

/-- The values a colour command hands to the engine are ROM outputs. -/
theorem ColourWrites.from_rom {bd : Build} {ms : List MicroWrite} (h : ColourWrites bd ms) :
    ∀ m ∈ ms, RomValue bd m.ch m.val := by
  intro m hm
  cases h with
  | pixel p r g b => exact pixelWrites_from_rom hm
  | all r g b =>
    obtain ⟨p, -, hp⟩ := List.mem_flatMap.mp hm
    exact pixelWrites_from_rom hp

theorem submit_cell_from_rom {bd : Build} {ms : List MicroWrite} {s : State} {p : Pixel} {c : Channel}
    (hms : ColourWrites bd ms) (h : RomValue bd c (cell s p c)) : RomValue bd c (cell (submit bd ms s) p c) := by
  cases ha : bd.atomic with
  | true =>
    rw [submit_of_atomic ha]
    rcases cell_writeCells_cases ms s p c with he | ⟨m, hm, rfl, he⟩
    · rwa [he]
    · rw [he]
      exact hms.from_rom m hm
  | false => rwa [submit_of_not_atomic ha]

/-- The store clause of `ValuesFromRom`. -/
abbrev StoreFromRom (bd : Build) (s : State) : Prop := s.run = true → ∀ p c, RomValue bd c (cell s p c)

theorem storeFromRom_enable (bd : Build) (s : State) : StoreFromRom bd (enable s) := by
  intro _ p c
  have hcell : cell (enable s) p c = 255 := by
    rw [enable_eq]
    cases c <;> simp [cell]
  rw [hcell]
  exact romValue_off bd c

theorem exec_storeFromRom {i : Instr} {s t : State} (hs : StoreFromRom Config.build s) (h : exec i s = .next t) :
    StoreFromRom Config.build t := by
  cases i with
  | init => cases h; exact storeFromRom_enable _ _
  | enable => cases h; exact storeFromRom_enable _ _
  | disable => cases h; exact fun hr => nomatch (stopped_disable s).run.symm.trans hr
  | setColor pix r g b =>
    cases h
    rcases pixelField_cases pix with ⟨p, hp⟩ | hp
    · rw [setColor_of_toNat_eq hp]
      exact fun hr q c => submit_cell_from_rom (.pixel p r g b)
        (hs ((submit_same _ _ s).2.run.symm.trans hr) q c)
    · rw [setColor_of_ge hp]
      exact hs
  | setAll r g b =>
    cases h
    exact fun hr q c => submit_cell_from_rom (.all r g b) (hs ((submit_same _ _ s).2.run.symm.trans hr) q c)
  | nop | clrStatus | reserved7 | reserved8F => cases h; exact hs

theorem engineStep_storeFromRom {bd : Build} {s : State} (k : Nat) (hp : ∀ m ∈ s.pending, RomValue bd m.ch m.val)
    (hs : StoreFromRom bd s) : StoreFromRom bd (engineStep k s) := by
  by_cases hpend : s.pending = []
  · rwa [engineStep_of_empty k s hpend]
  · obtain ⟨before, m, after, hsplit, hk⟩ := pending_split k hpend
    rw [engineStep_of_pending_eq hsplit hk]
    intro hr p c
    show RomValue bd c (cell (writeCell m s) p c)
    rw [cell_writeCell]
    split
    next hm => exact hm.2 ▸ hp m (by simp [hsplit])
    next => exact hs hr p c

theorem boundary_storeFromRom {bd : Build} {late : Bool} {s t : State} (hs : StoreFromRom bd s)
    (h : boundary bd late s = .next t) : StoreFromRom bd t := by
  intro hr p c
  rw [cell, boundary_store h]
  exact hs ((boundary_lines h).1.symm.trans hr) p c

theorem storeFromRom_takeMove_hostQ {bd : Build} {s : State} (hs : StoreFromRom bd s) (q : List HostAccess) :
    StoreFromRom bd { takeMove s with hostQ := q } := by
  simpa [StoreFromRom, cell] using hs

theorem step_storeFromRom {s t : State} (hp : ∀ m ∈ s.pending, RomValue Config.build m.ch m.val)
    (hs : StoreFromRom Config.build s) (h : step s = .next t) : StoreFromRom Config.build t := by
  have htaken := storeFromRom_takeMove_hostQ hs
  rcases step_cases h with ⟨i, q, -, -, he⟩ | ⟨-, -, hq⟩ | ⟨late, -, -, ht⟩
  · exact exec_storeFromRom (htaken q) he
  · rcases hq with ⟨v, q, -, -, rfl⟩ | ⟨v, q, -, -, rfl⟩ | ⟨q, rfl⟩ | ⟨k, -, rfl⟩
    · exact htaken q
    · exact htaken q
    · exact htaken q
    · exact engineStep_storeFromRom k (by simpa using hp) (htaken (takeMove s).hostQ)
  · exact boundary_storeFromRom (htaken (takeMove s).hostQ) ht

/-- A command leaves the compare buffers alone, or dark (43 R222). -/
theorem exec_cmpBuf {i : Instr} {s t : State} (h : exec i s = .next t) : t.cmpBuf = s.cmpBuf ∨ t.cmpBuf = Triple.off := by
  cases i with
  | init | enable => cases h; exact .inr (by rw [enable_eq]; rfl)
  | disable => cases h; exact .inl (by rw [disable_eq])
  | setColor pix r g b => cases h; exact .inl (by rw [setColor_only_store_pending_errPixel])
  | setAll r g b => cases h; exact .inl (by rw [setAll, submit_only_store_pending])
  | nop | clrStatus | reserved7 | reserved8F => cases h; exact .inl rfl

theorem romValue_of_offOrStored {bd : Build} {s : State} {c : Channel} {v : Byte}
    (hs : ∀ p c, RomValue bd c (cell s p c)) (h : OffOrStored s.store c v) : RomValue bd c v := by
  rcases h with rfl | ⟨p, rfl⟩
  · exact romValue_off bd c
  · exact hs p c

/-- Over a step a compare buffer keeps its value or takes one of the ROM. -/
theorem step_cmpBuf_from_rom {s t : State} (hs : StoreFromRom Config.build s) (h : step s = .next t) (c : Channel)
    (hc : RomValue Config.build c (s.cmpBuf.get c)) : RomValue Config.build c (t.cmpBuf.get c) := by
  rcases step_cases h with ⟨i, q, -, -, he⟩ | ⟨-, -, hq⟩ | ⟨late, -, hb, ht⟩
  · rcases exec_cmpBuf he with hbuf | hbuf
    · rw [hbuf]
      simpa using hc
    · rw [hbuf]
      cases c <;> exact romValue_off ..
  · rcases hq with ⟨v, q, -, -, rfl⟩ | ⟨v, q, -, -, rfl⟩ | ⟨q, rfl⟩ | ⟨k, -, rfl⟩
    · simpa using hc
    · simpa using hc
    · simpa using hc
    · rw [engineStep_only_store_pending]
      simpa using hc
  · rcases boundary_cmpBuf_cases ht c with hbuf | hbuf
    · rw [hbuf]
      simpa using hc
    · rw [takeMove_store] at hbuf
      exact romValue_of_offOrStored (hs (run_of_boundaryOfStep hb)) hbuf

/-- The active compare values are those from before the step, or the buffers' from before it. -/
theorem step_cmpAct_cases {s t : State} (h : step s = .next t) : t.cmpAct = s.cmpAct ∨ t.cmpAct = s.cmpBuf := by
  cases hb : boundaryOfStep s with
  | none => exact .inl (step_cmpAct_of_no_boundary h hb)
  | some late => exact .inr (step_cmpAct_of_boundary h (by rw [hb]; rfl))

/-- Settles O50: the pending values, the compare values and the store, each over the step. -/
theorem driveLevelsStayRomOutputs : Obligations.DriveLevelsStayRomOutputs := by
  rintro s t ⟨hpend, hcmp, hstore⟩ h
  refine ⟨?_, fun c => ⟨step_cmpBuf_from_rom hstore h c (hcmp c).1, ?_⟩, step_storeFromRom hpend hstore h⟩
  · rcases step_pending h with hsub | ⟨-, hms⟩
    · exact fun m hm => hpend m (hsub.subset hm)
    · exact hms.from_rom
  · rcases step_cmpAct_cases h with hact | hact
    · exact hact ▸ (hcmp c).2
    · exact hact ▸ (hcmp c).1

end Sys2Proof.Machine
end

section
/-! Proofs about the store that no one observes while the block is disabled (70_reset_and_hazards R292): the moves of a
step run alike from two stores -/

namespace Sys2Proof.Machine

/-- The state with another store. -/
def withStore (d : Store) (s : State) : State := { s with store := d }

theorem storeHidden_refl (s : State) : StoreHidden s s := .inl rfl

theorem storeHidden_withStore {s : State} (h : s.run = false) (d : Store) : StoreHidden s (withStore d s) :=
  .inr ⟨rfl, h⟩

/-- No output and no register shows the store. -/
theorem StoreHidden.out_eq {s t : State} (h : StoreHidden s t) : s.out = t.out := by
  rcases h with rfl | ⟨hst, -⟩
  · rfl
  · rw [← hst]

theorem StoreHidden.regValue_eq {s t : State} (h : StoreHidden s t) (bd : Build) (off : BitVec 5) :
    regValue bd off s = regValue bd off t := by
  rcases h with rfl | ⟨hst, -⟩
  · rfl
  · rw [← hst]
    rfl

/-- Two outcomes that no one can tell apart: next states whose stores are hidden, or the same stop. -/
inductive SameFate : Host.Outcome State Fault Refusal → Host.Outcome State Fault Refusal → Prop
  | next {s t : State} (h : StoreHidden s t) : SameFate (.next s) (.next t)
  | fault (f : Fault) : SameFate (.fault f) (.fault f)
  | refused (r : Refusal) : SameFate (.refused r) (.refused r)

theorem SameFate.refl (o : Host.Outcome State Fault Refusal) : SameFate o o := by
  cases o with
  | next s => exact .next (storeHidden_refl s)
  | fault f => exact .fault f
  | refused r => exact .refused r

theorem sameFate_withStore {s : State} (h : s.run = false) (d : Store) :
    SameFate (.next s) (.next (withStore d s)) :=
  .next (storeHidden_withStore h d)

/-- Micro-writes taken by two engines whose stores differ leave stores that differ, or the same pending set. -/
theorem submit_storeHidden {s : State} (h : s.run = false) (bd : Build) (ms : List MicroWrite) (d : Store) :
    StoreHidden (submit bd ms s) (submit bd ms (withStore d s)) := by
  cases ha : bd.atomic with
  | true =>
    rw [submit_of_atomic ha, submit_of_atomic ha, writeCells_only_store ms s, writeCells_only_store ms (withStore d s)]
    exact .inr ⟨rfl, h⟩
  | false =>
    rw [submit_of_not_atomic ha, submit_of_not_atomic ha]
    exact .inr ⟨rfl, h⟩

theorem exec_sameFate {s : State} (h : s.run = false) (i : Instr) (d : Store) :
    SameFate (exec i s) (exec i (withStore d s)) := by
  cases i with
  | init =>
    rw [exec_init, exec_init, enable_eq, enable_eq]
    exact .refl _
  | enable =>
    rw [exec_enable, exec_enable, enable_eq, enable_eq]
    exact .refl _
  | disable =>
    rw [exec_disable, exec_disable, disable_eq, disable_eq]
    exact sameFate_withStore rfl d
  | setColor pix r g b =>
    rw [exec_setColor, exec_setColor]
    rcases pixelField_cases pix with ⟨p, hp⟩ | hp
    · rw [setColor_of_toNat_eq hp, setColor_of_toNat_eq hp]
      exact .next (submit_storeHidden h ..)
    · rw [setColor_of_ge hp, setColor_of_ge hp]
      exact .next (.inr ⟨rfl, h⟩)
  | setAll r g b =>
    rw [exec_setAll, exec_setAll]
    exact .next (submit_storeHidden h ..)
  | nop | clrStatus | reserved7 | reserved8F => exact .next (.inr ⟨rfl, h⟩)

theorem hostWrite_sameFate {s : State} (h : s.run = false) (off : BitVec 5) (v : Word) (d : Store) :
    SameFate (hostWrite off v s) (hostWrite off v (withStore d s)) := by
  unfold hostWrite
  split
  · exact exec_sameFate h (decodeWord v) d
  · exact .next (.inr ⟨rfl, h⟩)
  · exact sameFate_withStore h d

theorem hostAccess_sameFate {s : State} (h : s.run = false) (a : HostAccess) (d : Store) :
    SameFate (hostAccess a s) (hostAccess a (withStore d s)) := by
  obtain ⟨kind, off, size⟩ := a
  cases kind with
  | read =>
    have hreg := (storeHidden_withStore h d).regValue_eq Config.build off
    simp only [hostAccess, hostRead, ← hreg]
    exact .next (.inr ⟨rfl, h⟩)
  | write v => exact hostWrite_sameFate h off v d

theorem hostStep_sameFate {s : State} (h : s.run = false) (d : Store) :
    SameFate (hostStep s) (hostStep (withStore d s)) := by
  have hq' : (withStore d s).hostQ = s.hostQ := rfl
  have hp' : (withStore d s).pending = s.pending := rfl
  unfold hostStep
  rw [hq', hp']
  split
  next => exact sameFate_withStore h d
  next a q _ =>
    split
    · split
      · exact hostAccess_sameFate (s := { s with hostQ := q }) h a d
      · exact sameFate_withStore h d
    · exact .fault _

theorem engineStep_storeHidden {s : State} (h : s.run = false) (k : Nat) (d : Store) :
    StoreHidden (engineStep k s) (engineStep k (withStore d s)) := by
  have hp' : (withStore d s).pending = s.pending := rfl
  unfold engineStep
  rw [hp']
  split
  · exact storeHidden_withStore h d
  · exact .inr ⟨rfl, h⟩

theorem runMove_sameFate {s : State} (h : s.run = false) (m : Move) (d : Store) :
    SameFate (runMove m s) (runMove m (withStore d s)) := by
  cases m with
  | host => exact hostStep_sameFate h d
  | engine k => exact .next (engineStep_storeHidden h k d)
  | port late =>
    have hs : portStep Config.build late s = .next s := by simp [portStep, h]
    have ht : portStep Config.build late (withStore d s) = .next (withStore d s) := by
      simp [portStep, withStore, h]
    rw [runMove, runMove, hs, ht]
    exact sameFate_withStore h d
  | issue a => exact .next (.inr ⟨rfl, h⟩)

theorem takeMove_withStore (d : Store) (s : State) : takeMove (withStore d s) = withStore d (takeMove s) := by
  unfold takeMove withStore
  split <;> simp_all

/-- States that differ in a hidden store step alike. -/
theorem step_sameFate {s t : State} (h : StoreHidden s t) : SameFate (step s) (step t) := by
  rcases h with rfl | ⟨hst, hrun⟩
  · exact .refl _
  · have ht : t = withStore t.store s := hst.symm
    rw [ht, step_eq, step_eq, takeMove_withStore]
    exact runMove_sameFate (by simpa using hrun) (nextMove s) t.store

/-- Settles O57: the two outcomes are of one kind, and hidden stores show in no output and no register. -/
theorem powerOnStoreIsNeverObserved : Obligations.PowerOnStoreIsNeverObserved := by
  intro s t h
  have hfate := step_sameFate h
  generalize step s = o, step t = o' at hfate
  cases hfate with
  | next h' => exact ⟨h', h'.out_eq, h'.regValue_eq⟩
  | fault f => rfl
  | refused r => rfl

end Sys2Proof.Machine
end

section
/-! Proofs about the writers of the sticky flags (10_state R42 to R44, 60_exceptions R263), and about the reset state
(10_state section 12) -/

namespace Sys2Proof.Machine

/-- The four sticky flags are unchanged. -/
structure SameFlags (s t : State) : Prop where
  framePend : t.framePend = s.framePend
  ovr       : t.ovr = s.ovr
  errPixel  : t.errPixel = s.errPixel
  errCmd    : t.errCmd = s.errCmd

/-- CLR_STATUS clears flags, SET_COLOR out of range and a reserved word each set one, and no other command touches
them. -/
theorem exec_flags {i : Instr} {s t : State} (h : exec i s = .next t) :
    (∃ m, i = .clrStatus m ∧ t = clearConditions m s) ∨
    (∃ pix r g b, i = .setColor pix r g b ∧ 6 ≤ pix.toNat ∧ t = { s with errPixel := true }) ∨
    ((i = .reserved7 ∨ ∃ op, i = .reserved8F op) ∧ t = { s with errCmd := true }) ∨ SameFlags s t := by
  cases i with
  | clrStatus m => cases h; exact .inl ⟨m, rfl, rfl⟩
  | setColor pix r g b =>
    cases h
    rcases pixelField_cases pix with ⟨p, hp⟩ | hp
    · rw [setColor_of_toNat_eq hp, submit_only_store_pending]
      exact .inr (.inr (.inr ⟨rfl, rfl, rfl, rfl⟩))
    · exact .inr (.inl ⟨pix, r, g, b, rfl, hp, setColor_of_ge hp ..⟩)
  | reserved7 => cases h; exact .inr (.inr (.inl ⟨.inl rfl, rfl⟩))
  | reserved8F op => cases h; exact .inr (.inr (.inl ⟨.inr ⟨op, rfl⟩, rfl⟩))
  | init | enable =>
    cases h
    rw [enable_eq]
    exact .inr (.inr (.inr ⟨rfl, rfl, rfl, rfl⟩))
  | disable =>
    cases h
    rw [disable_eq]
    exact .inr (.inr (.inr ⟨rfl, rfl, rfl, rfl⟩))
  | setAll r g b =>
    cases h
    rw [setAll, submit_only_store_pending]
    exact .inr (.inr (.inr ⟨rfl, rfl, rfl, rfl⟩))
  | nop => cases h; exact .inr (.inr (.inr ⟨rfl, rfl, rfl, rfl⟩))

/-- A boundary records FRAME and, where it is late, the overrun; it clears no flag and sets no other. -/
structure BoundaryFlags (late : Bool) (s t : State) : Prop where
  framePend : s.framePend = true → t.framePend = true
  ovr       : t.ovr = (s.ovr || late)
  errPixel  : t.errPixel = s.errPixel
  errCmd    : t.errCmd = s.errCmd

theorem portAll_flags (as : List PortAction) (s : State) : SameFlags s (portAll as s) := by
  rw [portAll_only_lines]
  exact ⟨rfl, rfl, rfl, rfl⟩

theorem overrunRecord_latch_flags (late : Bool) (s : State) : BoundaryFlags late s (overrunRecord late (latch s)) := by
  cases late <;> exact ⟨fun h => h, by simp, by simp, by simp⟩

theorem advance_flags (bd : Build) (i : Pixel) (s : State) : BoundaryFlags false s (advance bd i s) := by
  rw [advance]
  split
  · exact ⟨fun h => h, by simp, rfl, rfl⟩
  · split
    · exact ⟨fun _ => rfl, by simp [frameComplete], rfl, rfl⟩
    · exact ⟨fun h => h, by simp, rfl, rfl⟩

theorem boundary_flags {bd : Build} {late : Bool} {s t : State} (h : boundary bd late s = .next t) :
    BoundaryFlags late s t := by
  obtain ⟨i, as, -, -, -, rfl⟩ := (boundary_next _ _ _ _).mp h
  have h1 := overrunRecord_latch_flags late s
  have h2 := portAll_flags as (overrunRecord late (latch s))
  have h3 := advance_flags bd i (portAll as (overrunRecord late (latch s)))
  exact ⟨fun h => h3.framePend (h2.framePend.trans (h1.framePend h)),
    by rw [h3.ovr, h2.ovr, h1.ovr, Bool.or_false], h3.errPixel.trans (h2.errPixel.trans h1.errPixel),
    h3.errCmd.trans (h2.errCmd.trans h1.errCmd)⟩

theorem takeMove_hostQ_flags (s : State) (q : List HostAccess) : SameFlags s { takeMove s with hostQ := q } :=
  ⟨takeMove_framePend s, takeMove_ovr s, takeMove_errPixel s, takeMove_errCmd s⟩

theorem engineStep_flags (k : Nat) (s : State) : SameFlags s (engineStep k s) := by
  rw [engineStep_only_store_pending]
  exact ⟨rfl, rfl, rfl, rfl⟩

theorem SameFlags.trans {s t u : State} (h : SameFlags s t) (h' : SameFlags t u) : SameFlags s u :=
  ⟨h'.framePend.trans h.framePend, h'.ovr.trans h.ovr, h'.errPixel.trans h.errPixel, h'.errCmd.trans h.errCmd⟩

/-- All a step can do to the sticky flags, with the command or the boundary that does it. -/
inductive FlagStep (s t : State) : Prop
  | clear (m : BitVec 6) (hc : commandOfStep s = some (.clrStatus m))
      (hframe : t.framePend = (!m.getLsbD 0 && s.framePend)) (hovr : t.ovr = (!m.getLsbD 1 && s.ovr))
      (hpix : t.errPixel = (!m.getLsbD 2 && s.errPixel)) (hcmd : t.errCmd = (!m.getLsbD 3 && s.errCmd))
  | pixelRange (hc : ∃ pix r g b, commandOfStep s = some (.setColor pix r g b) ∧ 6 ≤ pix.toNat)
      (hframe : t.framePend = s.framePend) (hovr : t.ovr = s.ovr) (hpix : t.errPixel = true)
      (hcmd : t.errCmd = s.errCmd)
  | badCommand (hc : commandOfStep s = some .reserved7 ∨ ∃ op, commandOfStep s = some (.reserved8F op))
      (hframe : t.framePend = s.framePend) (hovr : t.ovr = s.ovr) (hpix : t.errPixel = s.errPixel)
      (hcmd : t.errCmd = true)
  | boundary (late : Bool) (hb : boundaryOfStep s = some late) (hflags : BoundaryFlags late s t)
  | none (hflags : SameFlags s t)

theorem step_flags {s t : State} (h : step s = .next t) : FlagStep s t := by
  rcases step_cases h with ⟨i, q, hc, -, he⟩ | ⟨-, -, hq⟩ | ⟨late, -, hb, ht⟩
  · have htaken := takeMove_hostQ_flags s q
    rcases exec_flags he with ⟨m, rfl, rfl⟩ | ⟨pix, r, g, b, rfl, hp, rfl⟩ | ⟨hi, rfl⟩ | hsame
    · exact .clear m hc (by simp) (by simp) (by simp) (by simp)
    · exact .pixelRange ⟨pix, r, g, b, hc, hp⟩ htaken.framePend htaken.ovr rfl htaken.errCmd
    · exact .badCommand (by simpa [hc] using hi) htaken.framePend htaken.ovr htaken.errPixel rfl
    · exact .none (htaken.trans hsame)
  · rcases hq with ⟨v, q, -, -, rfl⟩ | ⟨v, q, -, -, rfl⟩ | ⟨q, rfl⟩ | ⟨k, -, rfl⟩
    · exact .none ((takeMove_hostQ_flags s q).trans ⟨rfl, rfl, rfl, rfl⟩)
    · exact .none ((takeMove_hostQ_flags s q).trans ⟨rfl, rfl, rfl, rfl⟩)
    · exact .none (takeMove_hostQ_flags s q)
    · exact .none ((takeMove_hostQ_flags s (takeMove s).hostQ).trans (engineStep_flags k _))
  · have hflags := boundary_flags ht
    exact .boundary late hb ⟨by simpa using hflags.framePend, by simpa using hflags.ovr, by simpa using hflags.errPixel,
      by simpa using hflags.errCmd⟩

/-- Each flag is set only by its own writer. -/
theorem FlagStep.setters {s t : State} (h : FlagStep s t) :
    (s.framePend = false → t.framePend = true → (boundaryOfStep s).isSome = true) ∧
    (s.ovr = false → t.ovr = true → boundaryOfStep s = some true) ∧
    (s.errPixel = false → t.errPixel = true →
      ∃ pix r g b, commandOfStep s = some (.setColor pix r g b) ∧ 6 ≤ pix.toNat) ∧
    (s.errCmd = false → t.errCmd = true →
      commandOfStep s = some .reserved7 ∨ ∃ op, commandOfStep s = some (.reserved8F op)) := by
  cases h with
  | clear m hc hframe hovr hpix hcmd => simp +contextual [hframe, hovr, hpix, hcmd]
  | pixelRange hc hframe hovr hpix hcmd =>
    exact ⟨by simp +contextual [hframe], by simp +contextual [hovr], fun _ _ => hc, by simp +contextual [hcmd]⟩
  | badCommand hc hframe hovr hpix hcmd => simp +contextual [hframe, hovr, hpix, hc]
  | boundary late hb hflags => simp +contextual [hb, hflags.ovr, hflags.errPixel, hflags.errCmd]
  | none hflags => simp +contextual [hflags.framePend, hflags.ovr, hflags.errPixel, hflags.errCmd]

/-- Each flag is cleared only by a CLR_STATUS that selects it. -/
theorem FlagStep.clearers {s t : State} (h : FlagStep s t) :
    (s.framePend = true → t.framePend = false → ∃ m, commandOfStep s = some (.clrStatus m) ∧ m.getLsbD 0 = true) ∧
    (s.ovr = true → t.ovr = false → ∃ m, commandOfStep s = some (.clrStatus m) ∧ m.getLsbD 1 = true) ∧
    (s.errPixel = true → t.errPixel = false → ∃ m, commandOfStep s = some (.clrStatus m) ∧ m.getLsbD 2 = true) ∧
    (s.errCmd = true → t.errCmd = false → ∃ m, commandOfStep s = some (.clrStatus m) ∧ m.getLsbD 3 = true) := by
  cases h with
  | clear m hc hframe hovr hpix hcmd => simp +contextual [hframe, hovr, hpix, hcmd, hc]
  | pixelRange hc hframe hovr hpix hcmd => simp +contextual [hframe, hovr, hpix, hcmd]
  | badCommand hc hframe hovr hpix hcmd => simp +contextual [hframe, hovr, hpix, hcmd]
  | boundary late hb hflags =>
    simp +contextual [hflags.framePend, hflags.ovr, hflags.errPixel, hflags.errCmd]
  | none hflags => simp +contextual [hflags.framePend, hflags.ovr, hflags.errPixel, hflags.errCmd]

/-- 1 where a flag goes from clear to set, else 0. -/
def rises (a b : Bool) : Nat := if a = false ∧ b = true then 1 else 0

theorem rises_le_one (a b : Bool) : rises a b ≤ 1 := by cases a <;> cases b <;> decide

@[simp] theorem rises_self (a : Bool) : rises a a = 0 := by cases a <;> rfl

@[simp] theorem rises_clear (m a : Bool) : rises a (!m && a) = 0 := by cases m <;> cases a <;> rfl

/-- At most one of the three error flags rises: the overrun by a boundary, the other two by commands that differ. -/
theorem FlagStep.rises_sum_le_one {s t : State} (h : FlagStep s t) :
    rises s.ovr t.ovr + rises s.errPixel t.errPixel + rises s.errCmd t.errCmd ≤ 1 := by
  cases h with
  | clear m hc hframe hovr hpix hcmd => simp only [hovr, hpix, hcmd, rises_clear]; decide
  | pixelRange hc hframe hovr hpix hcmd =>
    simp only [hovr, hcmd, rises_self, Nat.zero_add, Nat.add_zero, rises_le_one]
  | badCommand hc hframe hovr hpix hcmd =>
    simp only [hovr, hpix, rises_self, Nat.zero_add, rises_le_one]
  | boundary late hb hflags =>
    simp only [hflags.errPixel, hflags.errCmd, rises_self, Nat.add_zero, rises_le_one]
  | none hflags => simp only [hflags.ovr, hflags.errPixel, hflags.errCmd, rises_self]; decide

/-- Settles O60: by what the step does to the flags. -/
theorem stickyFlagsHaveTheirOwnWriters : Obligations.StickyFlagsHaveTheirOwnWriters := by
  intro s t h
  have hflags := step_flags h
  obtain ⟨hframe, hovr, hpix, hcmd⟩ := hflags.setters
  obtain ⟨hframe', hovr', hpix', hcmd'⟩ := hflags.clearers
  exact ⟨hframe, hovr, hpix, hcmd, hframe', hovr', hpix', hcmd', hflags.rises_sum_le_one⟩

/-! ### The reset state (10_state section 12) -/

theorem inv_reset (bd : Build) : Inv bd State.reset where
  scan := ⟨by decide, phaseCount_pos bd, by decide, by decide⟩
  lines := linesSafe_of_off rfl rfl
  display := linesFollowScan_of_off rfl rfl rfl
  dark := fun _ => ⟨rfl, rfl⟩
  values := by
    refine ⟨(fun _ hm => nomatch hm), fun c => ?_, (nomatch ·)⟩
    have hc : Triple.off.get c = 255 := by cases c <;> rfl
    exact ⟨hc ▸ romValue_off bd c, hc ▸ romValue_off bd c⟩
  pending := ⟨List.nodup_nil, fun _ => rfl⟩

/-- Settles O52: each field of the table, and the invariants. -/
theorem resetStateIsTheRules : Obligations.ResetStateIsTheRules :=
  ⟨rfl, rfl, rfl, rfl, rfl, rfl, rfl, rfl, rfl, rfl, rfl, rfl, rfl, rfl, rfl, rfl, rfl, rfl, rfl,
    inv_reset Config.build⟩

end Sys2Proof.Machine
end

section
/-! Proofs about runs of boundaries: where the scan stands after any number of them and how many frames it has ended
(42_scan_scheduler R198), and the display schedules of one pixel (R185, R191). -/

namespace Sys2Proof.Machine

/-! ### Runs of boundaries -/

/-- What each boundary takes from one count to the next, a run takes from its start to its end. -/
theorem boundaries_induction {bd : Build} {P : Nat → State → Prop}
    (hstep : ∀ n s late, P n s → ∃ t, boundary bd late s = .next t ∧ P (n + 1) t)
    (lates : List Bool) {n : Nat} {s : State} (h : P n s) :
    ∃ t, boundaries bd lates s = .next t ∧ P (n + lates.length) t := by
  induction lates generalizing n s with
  | nil => exact ⟨s, rfl, h⟩
  | cons late lates ih =>
    obtain ⟨t, ht, hP⟩ := hstep n s late h
    obtain ⟨u, hu, hP'⟩ := ih hP
    refine ⟨u, (boundaries_cons_of_next bd late lates s t ht).trans hu, ?_⟩
    rwa [List.length_cons, Nat.add_comm lates.length 1, ← Nat.add_assoc]

theorem phaseCount_eq (bd : Build) : phaseCount bd = 5 ∨ phaseCount bd = 3 := by
  unfold phaseCount
  cases bd.policy with
  | fivePhase => exact .inl rfl
  | threeStage => exact .inr rfl

/-! ### The scan position as a count of boundaries -/

/-- The scan stands where `n` boundaries from (cur 0, phase 0) take it. -/
structure ScanAt (bd : Build) (n : Nat) (s : State) : Prop where
  cur   : s.cur.toNat = n / phaseCount bd % 6
  phase : s.phase.toNat = n % phaseCount bd
  prev  : s.prev.toNat < 6

/-- One more boundary within a pixel. -/
theorem count_succ_of_phase_lt {N n : Nat} (hN : N = 5 ∨ N = 3) (h : n % N < N - 1) :
    (n + 1) / N = n / N ∧ (n + 1) % N = n % N + 1 ∧ (n + 1) / (6 * N) = n / (6 * N) := by
  rcases hN with rfl | rfl <;> omega

/-- One more boundary that ends a pixel, and the frame where that is pixel 5. -/
theorem count_succ_of_last_phase {N n : Nat} (hN : N = 5 ∨ N = 3) (h : n % N = N - 1) :
    (n + 1) / N = n / N + 1 ∧ (n + 1) % N = 0 ∧
      (n + 1) / (6 * N) = n / (6 * N) + if n / N % 6 = 5 then 1 else 0 := by
  rcases hN with rfl | rfl <;> split <;> omega

theorem ScanAt.succ {bd : Build} {n : Nat} {s t : State} {late : Bool} (hs : ScanAt bd n s)
    (h : boundary bd late s = .next t) : ScanAt bd (n + 1) t := by
  obtain ⟨hc, hf, hp⟩ := hs
  rcases boundary_phase_cases h with hlt | hlast
  · obtain ⟨hphase, hcur, hprev, -⟩ := boundary_of_phase_lt h hlt
    obtain ⟨hdiv, hmod, -⟩ := count_succ_of_phase_lt (phaseCount_eq bd) (hf ▸ hlt)
    exact ⟨by rw [hcur, hc, hdiv], by rw [hphase, hf, hmod], hprev ▸ hp⟩
  · obtain ⟨hphase, hprev, hcur, -⟩ := boundary_of_last_phase h hlast
    obtain ⟨hdiv, hmod, -⟩ := count_succ_of_last_phase (phaseCount_eq bd) (hf ▸ hlast)
    refine ⟨?_, by rw [hphase, hmod]; rfl, by rw [hprev, hc]; omega⟩
    rw [hcur, hc, hdiv, Nat.mod_add_mod]

theorem ScanAt.completes {bd : Build} {n : Nat} {s : State} (hs : ScanAt bd n s) (late : Bool) :
    ∃ t, boundary bd late s = .next t := by
  obtain ⟨hc, hf, hp⟩ := hs
  exact boundary_completes late (by omega) (by rw [hf]; exact Nat.mod_lt _ (phaseCount_pos bd)) hp

/-! ### Frames (R198) -/

/-- The scan after `n` boundaries, and the frames ended since FRAME_CNT was `f` and the trace held `k` strobes. -/
structure FramesAt (bd : Build) (f : Half) (k n : Nat) (s : State) : Prop extends ScanAt bd n s where
  frameCnt : s.frameCnt = f + BitVec.ofNat 16 (n / (6 * phaseCount bd))
  strobes  : s.out.count .frame = k + n / (6 * phaseCount bd)

theorem FramesAt.succ {bd : Build} {f : Half} {k n : Nat} {s : State} (hs : FramesAt bd f k n s) (late : Bool) :
    ∃ t, boundary bd late s = .next t ∧ FramesAt bd f k (n + 1) t := by
  obtain ⟨hscan, hcnt, hstrobes⟩ := hs
  obtain ⟨t, ht⟩ := hscan.completes late
  suffices hframes : t.frameCnt = f + BitVec.ofNat 16 ((n + 1) / (6 * phaseCount bd)) ∧
      t.out.count .frame = k + (n + 1) / (6 * phaseCount bd) from
    ⟨t, ht, hscan.succ ht, hframes.1, hframes.2⟩
  have hc5 : s.cur = 5 ↔ n / phaseCount bd % 6 = 5 := by rw [← hscan.cur, ← BitVec.toNat_inj]; rfl
  rcases boundary_phase_cases ht with hlt | hlast
  · obtain ⟨-, -, -, -, hcnt', hstrobes'⟩ := boundary_of_phase_lt ht hlt
    obtain ⟨-, -, hdiv⟩ := count_succ_of_phase_lt (phaseCount_eq bd) (hscan.phase ▸ hlt)
    rw [hcnt', hstrobes', hdiv]
    exact ⟨hcnt, hstrobes⟩
  · obtain ⟨-, -, -, h5, hne⟩ := boundary_of_last_phase ht hlast
    obtain ⟨-, -, hdiv⟩ := count_succ_of_last_phase (phaseCount_eq bd) (hscan.phase ▸ hlast)
    by_cases hcur : s.cur = 5
    · obtain ⟨-, hcnt', hstrobes'⟩ := h5 hcur
      rw [hcnt', hstrobes', hdiv, if_pos (hc5.mp hcur), hcnt, hstrobes, BitVec.ofNat_add]
      exact ⟨BitVec.add_assoc .., Nat.add_assoc ..⟩
    · obtain ⟨-, hcnt', hstrobes'⟩ := hne hcur
      rw [hcnt', hstrobes', hdiv, if_neg (hc5.not.mp hcur)]
      exact ⟨hcnt, hstrobes⟩

/-- Settles O53: by induction on the boundaries, with the scan position and the frames as functions of their number. -/
theorem frameComesEveryPTimesNBoundaries : Obligations.FrameComesEveryPTimesNBoundaries := by
  intro bd lates s hc hf hp
  have hstart : FramesAt bd s.frameCnt (s.out.count .frame) 0 s :=
    { cur := by simp [hc], phase := by simp [hf], prev := by simp [hp], frameCnt := by simp, strobes := by simp }
  obtain ⟨t, ht, hend⟩ := boundaries_induction (fun _ _ late h => h.succ late) lates hstart
  rw [Nat.zero_add] at hend
  exact ⟨t, ht, hend.cur, hend.phase, hend.frameCnt, hend.strobes⟩

/-! ### The boundary of each phase -/

/-- The scan stands at phase `f` of pixel `i`. -/
structure AtPhase (s : State) (i : Pixel) (f : BitVec 3) : Prop where
  cur   : s.cur.toNat = i.val
  prev  : s.prev.toNat < 6
  phase : s.phase = f

theorem AtPhase.tickStart {s : State} {i : Pixel} {f : BitVec 3} (h : AtPhase s i f) (late : Bool) :
    AtPhase (overrunRecord late (latch s)) i f :=
  ⟨by simpa using h.cur, by simpa using h.prev, by simpa using h.phase⟩

theorem AtPhase.nextPhase {bd : Build} {late : Bool} {s t : State} {i : Pixel} {f : BitVec 3} (hs : AtPhase s i f)
    (h : boundary bd late s = .next t) (hf : f.toNat < phaseCount bd - 1) : AtPhase t i (f + 1) := by
  obtain ⟨hphase, hcur, hprev, -⟩ := boundary_of_phase_lt h (hs.phase ▸ hf)
  have hN := phaseCount_le bd
  refine ⟨hcur ▸ hs.cur, hprev ▸ hs.prev, BitVec.eq_of_toNat_eq ?_⟩
  rw [hphase, hs.phase, BitVec.toNat_add]
  exact (Nat.mod_eq_of_lt (by simp; omega)).symm

theorem AtPhase.nextPixel {bd : Build} {late : Bool} {s t : State} {i : Pixel} {f : BitVec 3} (hs : AtPhase s i f)
    (h : boundary bd late s = .next t) (hf : f.toNat = phaseCount bd - 1) : AtPhase t (nextPixel i) 0 := by
  obtain ⟨hphase, hprev, hcur, -⟩ := boundary_of_last_phase h (hs.phase ▸ hf)
  exact ⟨by rw [hcur, hs.cur]; rfl, by rw [hprev, hs.cur]; exact i.isLt, hphase⟩

/-- What a boundary leaves to see: the lines, and the compare values active and buffered. -/
structure Shows (t : State) (anode : BitVec 6) (boost : Bool) (cmpAct cmpBuf : Triple) : Prop where
  anode  : t.anode = anode
  boost  : t.boost = boost
  cmpAct : t.cmpAct = cmpAct
  cmpBuf : t.cmpBuf = cmpBuf

theorem phaseCount_of_fivePhase {bd : Build} (h : bd.policy = .fivePhase) : phaseCount bd = 5 := by
  simp [phaseCount, h]

theorem phaseCount_of_threeStage {bd : Build} (h : bd.policy = .threeStage) : phaseCount bd = 3 := by
  simp [phaseCount, h]

section FivePhase

variable {bd : Build} {s : State} {i : Pixel}

theorem boundary_preCharge (hpol : bd.policy = .fivePhase) (h : AtPhase s i 0) (late : Bool) :
    ∃ t, boundary bd late s = .next t ∧ AtPhase t i 1 ∧
      Shows t 0 (if (s.store[i]).b = 255 then s.boost else true) s.cmpBuf ⟨255, 255, 255⟩ := by
  have h' := h.tickStart late
  have ht := preChargeTick bd _ i hpol h'.cur h'.prev h'.phase
  exact ⟨_, ht, h.nextPhase ht (by rw [phaseCount_of_fivePhase hpol]; decide), rfl, by simp, by simp, rfl⟩

theorem boundary_settle (hpol : bd.policy = .fivePhase) (h : AtPhase s i 1) (late : Bool) :
    ∃ t, boundary bd late s = .next t ∧ AtPhase t i 2 ∧
      Shows t s.anode false s.cmpBuf ⟨255, 255, (s.store[i]).b⟩ := by
  have h' := h.tickStart late
  have ht := settleTick bd _ i hpol h'.cur h'.prev h'.phase
  exact ⟨_, ht, h.nextPhase ht (by rw [phaseCount_of_fivePhase hpol]; decide), by simp, rfl, by simp, by simp⟩

theorem boundary_showBlue (hpol : bd.policy = .fivePhase) (h : AtPhase s i 2) (late : Bool) :
    ∃ t, boundary bd late s = .next t ∧ AtPhase t i 3 ∧
      Shows t (1#6 <<< i.val) false s.cmpBuf ⟨(s.store[i]).r, 255, 255⟩ := by
  have h' := h.tickStart late
  have ht := showBlueTick bd _ i hpol h'.cur h'.prev h'.phase
  exact ⟨_, ht, h.nextPhase ht (by rw [phaseCount_of_fivePhase hpol]; decide), rfl, rfl, by simp, by simp⟩

theorem boundary_showRed (hpol : bd.policy = .fivePhase) (h : AtPhase s i 3) (late : Bool) :
    ∃ t, boundary bd late s = .next t ∧ AtPhase t i 4 ∧
      Shows t s.anode s.boost s.cmpBuf ⟨255, (s.store[i]).g, 255⟩ := by
  have h' := h.tickStart late
  have ht := showRedTick bd _ i hpol h'.cur h'.prev h'.phase
  exact ⟨_, ht, h.nextPhase ht (by rw [phaseCount_of_fivePhase hpol]; decide), by simp, by simp, by simp, by simp⟩

theorem boundary_showGreen (hpol : bd.policy = .fivePhase) (h : AtPhase s i 4) (late : Bool) :
    ∃ t, boundary bd late s = .next t ∧ AtPhase t (nextPixel i) 0 ∧
      Shows t s.anode s.boost s.cmpBuf ⟨255, 255, 255⟩ := by
  have h' := h.tickStart late
  have ht := showGreenTick bd _ i hpol h'.cur h'.prev h'.phase
  exact ⟨_, ht, h.nextPixel ht (by rw [phaseCount_of_fivePhase hpol]; decide), by simp, by simp, by simp, rfl⟩

end FivePhase

section ThreeStage

variable {bd : Build} {s : State} {i : Pixel}

theorem boundary_deactivateAndDecide (hpol : bd.policy = .threeStage) (h : AtPhase s i 0) (late : Bool) :
    ∃ t, boundary bd late s = .next t ∧ AtPhase t i 1 ∧
      Shows t 0 (if (s.store[i]).b = 255 then s.boost else true) s.cmpBuf s.cmpBuf := by
  have h' := h.tickStart late
  have ht := deactivateAndDecideTick bd _ i hpol h'.cur h'.prev h'.phase
  exact ⟨_, ht, h.nextPhase ht (by rw [phaseCount_of_threeStage hpol]; decide), rfl, by simp, by simp, by simp⟩

theorem boundary_activateCurrent (hpol : bd.policy = .threeStage) (h : AtPhase s i 1) (late : Bool) :
    ∃ t, boundary bd late s = .next t ∧ AtPhase t i 2 ∧ Shows t (1#6 <<< i.val) false s.cmpBuf s.cmpBuf := by
  have h' := h.tickStart late
  have ht := activateCurrentTick bd _ i hpol h'.cur h'.prev h'.phase
  exact ⟨_, ht, h.nextPhase ht (by rw [phaseCount_of_threeStage hpol]; decide), rfl, rfl, by simp, by simp⟩

theorem boundary_preloadNext (hpol : bd.policy = .threeStage) (h : AtPhase s i 2) (late : Bool) :
    ∃ t, boundary bd late s = .next t ∧ AtPhase t (nextPixel i) 0 ∧
      Shows t s.anode s.boost s.cmpBuf (s.store[nextPixel i]) := by
  have h' := h.tickStart late
  have ht := preloadNextTick bd _ i (nextPixel i) hpol h'.cur h'.prev h'.phase rfl
  exact ⟨_, ht, h.nextPixel ht (by rw [phaseCount_of_threeStage hpol]; decide), by simp, by simp, by simp, by simp⟩

end ThreeStage

/-! ### The display schedules -/

theorem AtPhase.withStore {s : State} {i : Pixel} {f : BitVec 3} (h : AtPhase s i f) (d : Store) :
    AtPhase { s with store := d } i f :=
  ⟨h.cur, h.prev, h.phase⟩

/-- The boost decision from an inactive sink. -/
theorem boostDecision_of_off {v : Byte} {b : Bool} (hb : b = false) :
    (if v = 255 then b else true) = (v != 255) := by
  by_cases hv : v = 255
  · rw [if_pos hv, hb, hv]; rfl
  · rw [if_neg hv, bne_iff_ne.mpr hv]

/-- Settles O54: the five boundaries of a pixel, each from the position and the values the one before it left. -/
theorem fivePhaseDisplaySchedule : Obligations.FivePhaseDisplaySchedule := by
  intro bd s i d1 d2 d3 d4 l0 l1 l2 l3 l4 hpol hc hp hf hb hbuf
  obtain ⟨t0, h0, at0, see0⟩ := boundary_preCharge hpol ⟨hc, hp, hf⟩ l0
  obtain ⟨t1, h1, at1, see1⟩ := boundary_settle hpol (at0.withStore d1) l1
  obtain ⟨t2, h2, at2, see2⟩ := boundary_showBlue hpol (at1.withStore d2) l2
  obtain ⟨t3, h3, at3, see3⟩ := boundary_showRed hpol (at2.withStore d3) l3
  obtain ⟨t4, h4, at4, see4⟩ := boundary_showGreen hpol (at3.withStore d4) l4
  have hanode3 : t3.anode = 1#6 <<< i.val := see3.anode.trans see2.anode
  have hboost3 : t3.boost = false := see3.boost.trans see2.boost
  exact ⟨t0, t1, t2, t3, t4, h0, h1, h2, h3, h4,
    ⟨see0.anode, see0.boost.trans (boostDecision_of_off hb), see0.cmpAct.trans hbuf⟩,
    ⟨see1.anode.trans see0.anode, see1.boost, see1.cmpAct.trans see0.cmpBuf⟩,
    ⟨see2.anode, see2.boost, see2.cmpAct.trans see1.cmpBuf⟩,
    ⟨hanode3, hboost3, see3.cmpAct.trans see2.cmpBuf⟩,
    ⟨see4.anode.trans hanode3, see4.boost.trans hboost3, see4.cmpAct.trans see3.cmpBuf⟩,
    see4.cmpBuf, at4.cur, at4.phase⟩

/-- Settles O55: the three boundaries of a pixel; the first two leave the buffers as they were. -/
theorem threeStageDisplaySchedule : Obligations.ThreeStageDisplaySchedule := by
  intro bd s i n d1 d2 l0 l1 l2 hpol hc hp hf hb hn
  obtain rfl : n = nextPixel i := Fin.ext hn
  obtain ⟨t0, h0, at0, see0⟩ := boundary_deactivateAndDecide hpol ⟨hc, hp, hf⟩ l0
  obtain ⟨t1, h1, at1, see1⟩ := boundary_activateCurrent hpol (at0.withStore d1) l1
  obtain ⟨t2, h2, at2, see2⟩ := boundary_preloadNext hpol (at1.withStore d2) l2
  have hbuf1 : t1.cmpBuf = s.cmpBuf := see1.cmpBuf.trans see0.cmpBuf
  exact ⟨t0, t1, t2, h0, h1, h2,
    ⟨see0.anode, see0.boost.trans (boostDecision_of_off hb), see0.cmpAct⟩,
    ⟨see1.anode, see1.boost, see1.cmpAct.trans see0.cmpBuf⟩,
    ⟨see2.anode.trans see1.anode, see2.boost.trans see1.boost, see2.cmpAct.trans hbuf1⟩,
    see2.cmpBuf, at2.cur, at2.phase⟩

end Sys2Proof.Machine
end

section
/-! Proofs about display latency (70_reset_and_hazards R302): a run of boundaries comes to the phase that buffers a
channel of a pixel, and the boundaries after it display what the store held. -/

namespace Sys2Proof.Machine

/-! ### Reaching a position -/

/-- A running block at count `n` whose lines follow the scan, with the store it started with. -/
structure RunningAt (bd : Build) (d : Store) (n : Nat) (s : State) : Prop extends ScanAt bd n s where
  store : s.store = d
  run   : s.run = true
  lines : LinesFollowScan bd s

theorem RunningAt.succ {bd : Build} {d : Store} {n : Nat} {s : State} (hs : RunningAt bd d n s) (late : Bool) :
    ∃ t, boundary bd late s = .next t ∧ RunningAt bd d (n + 1) t := by
  obtain ⟨hscan, hstore, hrun, hlines⟩ := hs
  obtain ⟨t, ht⟩ := hscan.completes late
  exact ⟨t, ht, hscan.succ ht, (boundary_store ht).trans hstore, (boundary_lines ht).1.trans hrun,
    boundary_linesFollowScan hrun hlines ht⟩

theorem runningAt_of_scanLegal {bd : Build} {s : State} (hs : ScanLegal bd s) (hrun : s.run = true)
    (hlines : LinesFollowScan bd s) : ∃ n, RunningAt bd s.store n s := by
  obtain ⟨hc, hf, hp, -⟩ := hs
  have hN := phaseCount_pos bd
  refine ⟨s.phase.toNat + phaseCount bd * s.cur.toNat, ⟨?_, ?_, hp⟩, rfl, hrun, hlines⟩
  · rw [Nat.add_mul_div_left _ _ hN, Nat.div_eq_of_lt hf, Nat.zero_add, Nat.mod_eq_of_lt hc]
  · rw [Nat.add_mul_mod_self_left, Nat.mod_eq_of_lt hf]

/-- From any count, fewer than `P x N` boundaries lead to any phase of any pixel. -/
theorem count_reaches {N : Nat} (hN : N = 5 ∨ N = 3) (n : Nat) {i f : Nat} (hi : i < 6) (hf : f < N) :
    ∃ j < 6 * N, (n + j) / N % 6 = i ∧ (n + j) % N = f := by
  refine ⟨(i * N + f + 6 * N - n % (6 * N)) % (6 * N), Nat.mod_lt _ (by omega), ?_⟩
  rcases hN with rfl | rfl <;> omega

theorem RunningAt.reaches {bd : Build} {d : Store} {n : Nat} {s : State} (hs : RunningAt bd d n s) (i : Pixel)
    {f : BitVec 3} (hf : f.toNat < phaseCount bd) {lates : List Bool} (hlen : 6 * phaseCount bd ≤ lates.length) :
    ∃ j < 6 * phaseCount bd, ∃ u, boundaries bd (lates.take j) s = .next u ∧ AtPhase u i f ∧ u.store = d ∧
      u.run = true ∧ LinesFollowScan bd u := by
  obtain ⟨j, hj, hcur, hphase⟩ := count_reaches (phaseCount_eq bd) n i.isLt hf
  obtain ⟨u, hu, hend⟩ := boundaries_induction (fun _ _ late h => h.succ late) (lates.take j) hs
  rw [List.length_take_of_le (by omega)] at hend
  exact ⟨j, hj, u, hu, ⟨hend.cur.trans hcur, hend.prev, BitVec.eq_of_toNat_eq (hend.phase.trans hphase)⟩, hend.store,
    hend.run, hend.lines⟩

theorem boundaries_append_of_next {bd : Build} {ls ms : List Bool} {s t : State}
    (h : boundaries bd ls s = .next t) : boundaries bd (ls ++ ms) s = boundaries bd ms t := by
  induction ls generalizing s with
  | nil => cases h; rfl
  | cons l ls ih =>
    cases hb : boundary bd l s with
    | next u =>
      rw [boundaries_cons_of_next bd l ls s u hb] at h
      rw [List.cons_append, boundaries_cons_of_next bd l _ s u hb, ih h]
    | fault f => simp [boundaries, hb] at h
    | refused r => simp [boundaries, hb] at h

/-! ### From the phase that buffers a channel to its display -/

/-- The FIVE_PHASE phase whose tick buffers the channel (42 R181 to R183). -/
def bufferPhase : Channel → BitVec 3
  | .blue => 1
  | .red => 2
  | .green => 3

/-- The boundary that buffers a channel of the current pixel and the one after it display the channel. -/
theorem fivePhase_displays {bd : Build} {u : State} {i : Pixel} (hpol : bd.policy = .fivePhase) (c : Channel)
    (hu : AtPhase u i (bufferPhase c)) (hrun : u.run = true) (hlines : LinesFollowScan bd u) (a b : Bool) :
    ∃ t, boundaries bd [a, b] u = .next t ∧ t.anode = 1#6 <<< i.val ∧ t.cmpAct.get c = cell u i c := by
  cases c with
  | blue =>
    obtain ⟨t1, h1, at1, see1⟩ := boundary_settle hpol hu a
    obtain ⟨t2, h2, -, see2⟩ := boundary_showBlue hpol at1 b
    refine ⟨t2, ?_, see2.anode, by rw [see2.cmpAct, see1.cmpBuf]; rfl⟩
    rw [boundaries_cons_of_next bd _ _ _ _ h1, boundaries_cons_of_next bd _ _ _ _ h2, boundaries_nil]
  | red =>
    obtain ⟨t1, h1, at1, see1⟩ := boundary_showBlue hpol hu a
    obtain ⟨t2, h2, -, see2⟩ := boundary_showRed hpol at1 b
    refine ⟨t2, ?_, see2.anode.trans see1.anode, by rw [see2.cmpAct, see1.cmpBuf]; rfl⟩
    rw [boundaries_cons_of_next bd _ _ _ _ h1, boundaries_cons_of_next bd _ _ _ _ h2, boundaries_nil]
  | green =>
    obtain ⟨-, -, -, hon⟩ := hlines hrun
    have hanode : u.anode = 1#6 <<< i.val := by
      rw [hon (by rw [hu.phase, displayFrom_of_fivePhase hpol]; decide), hu.cur]
    obtain ⟨t1, h1, at1, see1⟩ := boundary_showRed hpol hu a
    obtain ⟨t2, h2, -, see2⟩ := boundary_showGreen hpol at1 b
    refine ⟨t2, ?_, see2.anode.trans (see1.anode.trans hanode), by rw [see2.cmpAct, see1.cmpBuf]; rfl⟩
    rw [boundaries_cons_of_next bd _ _ _ _ h1, boundaries_cons_of_next bd _ _ _ _ h2, boundaries_nil]

/-- The boundary that buffers the next pixel's triple and the two after it display that pixel. -/
theorem threeStage_displays {bd : Build} {u : State} {i : Pixel} (hpol : bd.policy = .threeStage) (c : Channel)
    (hu : AtPhase u i 2) (l0 l1 l2 : Bool) :
    ∃ t, boundaries bd [l0, l1, l2] u = .next t ∧ t.anode = 1#6 <<< (nextPixel i).val ∧
      t.cmpAct.get c = cell u (nextPixel i) c := by
  obtain ⟨t0, h0, at0, see0⟩ := boundary_preloadNext hpol hu l0
  obtain ⟨t1, h1, at1, see1⟩ := boundary_deactivateAndDecide hpol at0 l1
  obtain ⟨t2, h2, -, see2⟩ := boundary_activateCurrent hpol at1 l2
  refine ⟨t2, ?_, see2.anode, by rw [see2.cmpAct, see1.cmpBuf, see0.cmpBuf]; rfl⟩
  rw [boundaries_cons_of_next bd _ _ _ _ h0, boundaries_cons_of_next bd _ _ _ _ h1,
    boundaries_cons_of_next bd _ _ _ _ h2, boundaries_nil]

/-- Every pixel follows one. -/
theorem exists_nextPixel_eq : ∀ i : Pixel, ∃ p, nextPixel p = i := by decide

/-- Settles O56: fewer than P x N boundaries lead to the phase that buffers the channel, and two or three more display
it. -/
theorem colourReachesTheDisplayInTime : Obligations.ColourReachesTheDisplayInTime := by
  intro bd s i c lates hscan hrun hlines
  obtain ⟨n, hs⟩ := runningAt_of_scanLegal hscan hrun hlines
  refine ⟨fun hpol hlen => ?_, fun hpol hlen => ?_⟩
  · have hN := phaseCount_of_fivePhase hpol
    have hphase : (bufferPhase c).toNat < phaseCount bd := by rw [hN]; cases c <;> decide
    obtain ⟨j, hj, u, hu, hat, hstore, hrun', hlines'⟩ := hs.reaches i hphase (lates := lates) (by omega)
    obtain ⟨a, b, hab⟩ : ∃ a b, (lates.drop j).take 2 = [a, b] := by
      rw [← List.length_eq_two, List.length_take_of_le (by rw [List.length_drop]; omega)]
    obtain ⟨t, ht, hanode, hact⟩ := fivePhase_displays hpol c hat hrun' hlines' a b
    refine ⟨j + 2, by omega, by omega, t, ?_, hanode, by rw [hact, cell, hstore, cell]⟩
    rw [List.take_add, boundaries_append_of_next hu, hab, ht]
  · have hN := phaseCount_of_threeStage hpol
    obtain ⟨p, rfl⟩ := exists_nextPixel_eq i
    obtain ⟨j, hj, u, hu, hat, hstore, -, -⟩ := hs.reaches p (f := 2) (by rw [hN]; decide) (lates := lates) (by omega)
    obtain ⟨l0, l1, l2, hl⟩ : ∃ l0 l1 l2, (lates.drop j).take 3 = [l0, l1, l2] := by
      rw [← List.length_eq_three, List.length_take_of_le (by rw [List.length_drop]; omega)]
    obtain ⟨t, ht, hanode, hact⟩ := threeStage_displays hpol c hat l0 l1 l2
    refine ⟨j + 3, by omega, by omega, t, ?_, hanode, by rw [hact, cell, hstore, cell]⟩
    rw [List.take_add, boundaries_append_of_next hu, hl, ht]

end Sys2Proof.Machine
end
